-- ==== Sys2Proof/Word.lean ====
section
/-! DEFINITION. The machine's word types and their plainest arithmetic (00_scope rules R108, R110 to R113). -/

namespace Sys2Proof

/-- A 16-bit word (R108). Bit 0 of the standard is the most significant bit (R110). -/
abbrev Word := BitVec 16

/-- A 32-bit quantity: two words, the first the most significant (R119, R121). -/
abbrev DWord := BitVec 32

/-- A 48-bit quantity: three words, the first the most significant (R122). -/
abbrev TWord := BitVec 48

/-- A byte: half a word (R201). -/
abbrev Byte := BitVec 8

/-- A physical word address: 20 bits with expanded memory, else the 16 logical bits extended with zeros (20_memory R205). -/
abbrev PAddr := BitVec 20

/-- A general register number, R0 to R15; sums of register numbers are modulo 16 (R113, 10_state R132). -/
abbrev Reg := Fin 16

/-- A bit number in the standard's numbering of a word: 0 is the most significant bit (R110). -/
abbrev BitNo := Fin 16

end Sys2Proof
end

