-- ==== Sys2Proof/Config.lean ====
section
/-! DEFINITION. What an implementation of the standard fixes (00_scope rules R103, R109), and the free values of the
behaviours the standard leaves without a value (93_implementation_defined). The parameters travel in the state as a field
that no instruction writes (log 5), so a statement over every state is a statement over every configuration. -/

namespace Sys2Proof

/-- How many page register groups are implemented (20_memory R210). -/
inductive GroupCount where
  | two
  | four
  | eight
  | sixteen
deriving DecidableEq, Repr

/-- `N_GROUPS` as a number. -/
def GroupCount.toNat : GroupCount → Nat
  | .two => 2
  | .four => 4
  | .eight => 8
  | .sixteen => 16

/-- The expanded memory option (R109 `OPT_EXPANDED_MEM`): its group count `N_GROUPS` and whether the access lock and key
feature `OPT_LOCK_KEY` is part of it. The lock cannot exist without expanded memory. -/
structure Expanded where
  groups : GroupCount
  lockKey : Bool
deriving DecidableEq, Repr

/-- The bit layout of the memory fault status register (R109 `MFSR_LAYOUT`): for each field the weight of its least
significant bit in value numbering. -/
structure MfsrLayout where
  lpa : Nat
  io : Nat
  asField : Nat
deriving DecidableEq, Repr

/-- The layout of 20_memory R217 (decision D4, log 104). -/
def MfsrLayout.adopted : MfsrLayout := { lpa := 12, io := 4, asField := 0 }

/-- The implementation parameters of 00_scope R109. -/
structure Config where
  /-- `OPT_EXPANDED_MEM`, `N_GROUPS`, `OPT_LOCK_KEY`. -/
  expanded : Option Expanded
  /-- `OPT_MEM_PROTECT_RAM`. -/
  memProtectRam : Bool
  /-- `MPROT_RESET_GLOBAL` (20_memory R220). -/
  mprotResetGlobal : Bool
  /-- `OPT_PARITY`. -/
  parity : Bool
  /-- `OPT_STARTUP_ROM`, `ROM_SIZE` and `ROM[]`: absent, or the words from physical address 0 on. -/
  rom : Option (List Word)
  /-- `OPT_TIMERS`. -/
  timers : Bool
  /-- `OPT_IOIC`. -/
  ioic : Bool
  /-- `OPT_MFSR` and `MFSR_LAYOUT`. -/
  mfsr : Option MfsrLayout
  /-- `OPT_DMA`. -/
  dma : Bool
  /-- `OPT_CONSOLE`. -/
  console : Bool
  /-- `OPT_DISCRETES`. -/
  discretes : Bool
  /-- `OPT_NPU_DISCRETE`. -/
  npuDiscrete : Bool
  /-- `OPT_GO`. -/
  go : Bool
  /-- `OPT_TPIO`. -/
  tpio : Bool
  /-- The complement of `PHYS_PRESENT`: ranges (first word, length) of physical words that are not present. -/
  absent : List (Nat × Nat)
  /-- `FT_IMPLEMENTED`. -/
  ftImplemented : Word
  /-- `SPARE_XIO`: the spare command words the application implements; what an output command does is the environment's, what
  an input command delivers is `Config.deviceInput` (40_io R373). -/
  spareXio : List Word
  /-- `BIF_SET`: the Op.Ex. of each Built-In-Function that the platform implements and how many further words it takes; what
  it does is `Config.userFunction` (49_logic_compare_misc R745). -/
  bifSet : List (Byte × Nat)
  /-- `IO_DEDICATED_BASE`, if used: where the I/O memory locations of the channels start; no CPU behaviour depends on it
  (20_memory R225). -/
  ioDedicatedBase : Option Word
deriving DecidableEq, Repr, Inhabited

/-- The default configuration of 92_eei_decisions section 3 and 93_implementation_defined section 1. -/
def Config.standard : Config where
  expanded := none
  memProtectRam := false
  mprotResetGlobal := true
  parity := false
  rom := none
  timers := true
  ioic := false
  mfsr := none
  dma := false
  console := false
  discretes := false
  npuDiscrete := false
  go := false
  tpio := false
  absent := []
  ftImplemented := 0x84F0#16
  spareXio := []
  bifSet := []
  ioDedicatedBase := none

/-- The n-th free value: a word that nothing constrains (log 7). The machine's counter `draws` selects a fresh one for
each value the standard leaves open; no proof can learn its value. -/
opaque Config.freeWord : Nat → Word

/-- `PIO_IN(c)`: the word that a device delivers to the input command word `c`, a programmed input or a spare one; the second
argument is the machine's counter `draws`, so each input has a word of its own (00_scope R109, 40_io R318, R373; log 10). -/
opaque Config.deviceInput : Word → Nat → Word

end Sys2Proof
end

