-- ==== Sys2Proof/Machine/State.lean ====
section
/-! DEFINITION. The state of the machine, the events of its environment, and the reasons a step can stop (10_state). -/

namespace Sys2Proof.Machine

/-! ## The environment (60_exceptions R763, R782, R812, R818; 20_memory R214, R215; 70_reset_and_hazards R840) -/

/-- The address a device other than the CPU uses (20_memory R214): a 16-bit logical address, with the address state and the
access key that the device supplies, or a 20-bit physical address that is not translated. -/
inductive DeviceAddress where
  | mapped (group key : BitVec 4) (logical : Word)
  | unmapped (physical : PAddr)
deriving DecidableEq, Repr

/-- What a device does at its address. -/
inductive DeviceOp where
  | read
  | write (data : Word)
deriving DecidableEq, Repr

/-- What the environment may do between two word references of the CPU (log 6). -/
inductive Event where
  /-- `TICK_A`: ten microseconds have passed (60_exceptions R815). -/
  | tickA
  /-- `TICK_B`: a hundred microseconds have passed (60_exceptions R816). -/
  | tickB
  /-- The power down signal (n = 0) or an external signal of a spare interrupt (n = 2, 8, 10, 11, 13, 15); other numbers
  have no external source and do nothing (60_exceptions R763). -/
  | request (n : BitNo)
  /-- An I/O channel requests interrupt 12 (level 1) or 14 (level 2) (60_exceptions R812). -/
  | ioRequest (level2 : Bool) (channel : BitVec 7)
  /-- A device references memory (20_memory R214, R232). -/
  | device (at_ : DeviceAddress) (op : DeviceOp)
  /-- The platform reports a fault: bits 3, 4, 6, 13, 14, 15 of FT only (60_exceptions R782). -/
  | platformFault (k : BitNo)
  /-- From now on a read of this physical word shows a parity error (20_memory R215, log 11). -/
  | parityError (p : PAddr)
  /-- From now on a read of this physical word shows none. -/
  | parityClear (p : PAddr)
  /-- The discrete input lines take this value (40_io R363). -/
  | discreteInput (w : Word)
  /-- The console delivers the two bytes that CI will read (40_io R366). -/
  | consoleData (w : Word)
  /-- The console interface status changes (40_io R367). -/
  | consoleStatus (w : Word)
  /-- The console is connected or taken away (49_logic_compare_misc R744). -/
  | consoleConnected (b : Bool)
  /-- `ConsoleRestart` (49_logic_compare_misc R744, decision D40). -/
  | consoleRestart
  /-- The trigger-go counter reaches `GO_TIMEOUT` (40_io R355). -/
  | goTimeout
  /-- A reset that is not a power up (70_reset_and_hazards R840). -/
  | systemReset
  /-- Power up; `image` is what main memory then holds, which the standard does not state (70_reset_and_hazards R840). -/
  | powerUp (image : List Host.Cell)
  /-- Power is lost; the machine has no state after it (60_exceptions R775). -/
  | powerLoss
deriving DecidableEq, Repr

/-- What the machine has sent to the environment. -/
inductive Output where
  /-- `PIO_OUT(c, data)` (40_io R310). -/
  | pio (command data : Word)
  /-- `CONSOLE_OUT(byte)` (40_io R342). -/
  | consoleByte (b : Byte)
  /-- The console interface is cleared (40_io R343). -/
  | consoleClear
  /-- `GO_RESTART` (40_io R355). -/
  | goRestart
  /-- A spare output command that the application implements (40_io R373). -/
  | spare (command data : Word)
  /-- The word a device read from memory (20_memory R214). -/
  | deviceData (data : Word)
deriving DecidableEq, Repr

/-! ## The state -/

/-- The I/O interrupt code registers IOIC1 and IOIC2, and whether each is frozen until it is read (10_state R151,
60_exceptions R812). -/
structure Ioic where
  code1 : BitVec 7
  code2 : BitVec 7
  frozen1 : Bool
  frozen2 : Bool
deriving DecidableEq, Repr, Inhabited

/-- The interval timers A and B and their run bits (10_state R154). -/
structure Timers where
  ta : Word
  tb : Word
  taRun : Bool
  tbRun : Bool
deriving DecidableEq, Repr, Inhabited

/-- The console interface (10_state R157) and `CONSOLE_CONNECTED` (00_scope R109). -/
structure Console where
  data : Word
  status : Word
  connected : Bool
deriving DecidableEq, Repr, Inhabited

/-- One group of the page file: its instruction set and its operand set (10_state R152, 20_memory R205). -/
structure PageGroup where
  instr : Vector Word 16
  oper : Vector Word 16
deriving DecidableEq, Repr, Inhabited

/-- Main memory as the list of its bytes: physical word p is the bytes at 2 p (bits 0 to 7) and 2 p + 1 (bits 8 to 15)
(20_memory R201, log 3). A byte that the list does not hold reads as `unlistedByte`. -/
abbrev Memory := List Host.Cell

/-- What a byte that memory does not list reads as; the standard states no contents for main memory at reset (10_state
R165). DESIGN CHOICE, log 2. -/
def unlistedByte : Byte := 0x00#8

/-- The machine (10_state). -/
structure State where
  /-- R0 to R15 (R130). -/
  regs : Vector Word 16
  /-- The instruction counter (R136). -/
  ic : Word
  /-- The status word (R140). -/
  sw : Word
  /-- The fault register (R147). -/
  ft : Word
  /-- The interrupt mask register MK (R149). -/
  mask : Word
  /-- The pending interrupt register (R150). -/
  pi : Word
  /-- Interrupt enable (R160). -/
  ie : Bool
  /-- `ENBL_PENDING` (R161). -/
  enblPending : Bool
  /-- The model's own: the instruction now ending issued the ENBL that is pending (60_exceptions R770 step 1, log 12). -/
  enblIssued : Bool
  /-- `PI_HOLD` (R162). -/
  piHold : Word
  /-- `HALTED` (R159). -/
  halted : Bool
  /-- Main memory (20_memory R200, R205). -/
  mem : Memory
  /-- The page file (R152): one pair of sets for each group. -/
  pages : Vector PageGroup 16
  /-- The memory protect RAM (R155). -/
  mprot : Vector Word 128
  /-- `MPROT_EN` (R155). -/
  mprotEn : Bool
  /-- The memory fault status register (R153). -/
  mfsr : Word
  /-- IOIC1 and IOIC2 (R151). -/
  ioic : Ioic
  /-- TA, TB, `TA_RUN`, `TB_RUN` (R154). -/
  timers : Timers
  /-- `ROM_EN` (R156). -/
  romEn : Bool
  /-- `DMA_EN` (R156). -/
  dmaEn : Bool
  /-- The normal power up discrete `NPU` (R156). -/
  npu : Bool
  /-- `GO_RUN` (R156). -/
  goRun : Bool
  /-- The discrete output buffer (R157). -/
  dout : Word
  /-- The discrete input word (R157). -/
  din : Word
  /-- The programmed output buffer (R157). -/
  pobuf : Word
  /-- The console interface (R157). -/
  console : Console
  /-- The model's own: the physical words whose reads show a parity error at present (20_memory R215, log 11). -/
  parityBad : List Nat
  /-- The model's own: what the environment will do, one list for each of its turns (log 6). -/
  env : List (List Event)
  /-- The model's own: what has been sent to the environment, newest first (log 17). -/
  outputs : List Output
  /-- The model's own: how many free values have been drawn (log 7). -/
  draws : Nat
  /-- The implementation parameters (00_scope R109); no instruction changes them (log 5). -/
  cfg : Config
deriving DecidableEq, Repr, Inhabited

end Sys2Proof.Machine

namespace Sys2Proof

/-- What the user defined function of a Built-In-Function does: a state transformer of which nothing is known, by Op.Ex. and
further instruction words (00_scope R109 `BIF_SET`, 49_logic_compare_misc R745; log 14). -/
opaque Config.userFunction : Byte → List Word → Machine.State → Machine.State

end Sys2Proof

namespace Sys2Proof.Machine

/-- Why the machine stops. -/
inductive Fault where
  /-- Power is lost (60_exceptions R775): raised by `step` alone, on the event `powerLoss`. Safe: the standard gives the
  machine no state after it. -/
  | powerOff
deriving DecidableEq, Repr

/-- Why the model gives an instruction no meaning. -/
inductive Refusal where
  /-- An instruction whose arm is not written yet: raised by `exec`. Safe. -/
  | notModelled (mnemonic : String)
deriving DecidableEq, Repr

/-- What one step or one instruction answers. -/
abbrev Out := Host.Outcome State Fault Refusal

/-! ## Reset (10_state R165) -/

/-- The page registers 0 to 15 of one set after reset: "Exact logical to physical", AL = 0, E or W = 0 (10_state R152). -/
def identitySet : Vector Word 16 :=
  #v[0x0000#16, 0x0001#16, 0x0002#16, 0x0003#16, 0x0004#16, 0x0005#16, 0x0006#16, 0x0007#16,
     0x0008#16, 0x0009#16, 0x000A#16, 0x000B#16, 0x000C#16, 0x000D#16, 0x000E#16, 0x000F#16]

/-- The page file after reset: the same set in all groups (decision D3, log 103). -/
def identityPages : Vector PageGroup 16 := Vector.replicate 16 { instr := identitySet, oper := identitySet }

/-- The machine with the parameters `c` right after a power up reset (10_state R165). The registers that Table VI leaves
indeterminate or does not list hold zero: DESIGN CHOICE, logs 1 and 4. -/
def State.resetWith (c : Config) : State where
  regs := Vector.replicate 16 0x0000#16
  ic := 0x0000#16
  sw := 0x0000#16
  ft := 0x0000#16
  mask := 0x0000#16
  pi := 0x0000#16
  ie := false
  enblPending := false
  enblIssued := false
  piHold := 0x0000#16
  halted := false
  mem := []
  pages := identityPages
  mprot := Vector.replicate 128 0x0000#16
  mprotEn := false
  mfsr := 0x0000#16
  ioic := { code1 := 0x00#7, code2 := 0x00#7, frozen1 := false, frozen2 := false }
  timers := { ta := 0x0000#16, tb := 0x0000#16, taRun := true, tbRun := true }
  romEn := true
  dmaEn := false
  npu := true
  goRun := true
  dout := 0x0000#16
  din := 0x0000#16
  pobuf := 0x0000#16
  console := { data := 0x0000#16, status := 0x0000#16, connected := false }
  parityBad := []
  env := []
  outputs := []
  draws := 0
  cfg := c

/-- The machine right after reset, with the default parameters (92_eei_decisions section 3; log 5). -/
def State.reset : State := State.resetWith Config.standard

end Sys2Proof.Machine
end

