-- ==== Sys2Proof/Machine/Flags.lean ====
section
/-! DEFINITION. Every computation of the condition status CS, of carry and of overflow (00_scope R116; 41_bit R400; 42_shift
R431; 46_int_addsub R560; 47_int_muldiv R600; 49_logic_compare_misc). CS is written as four bits in the order C P Z N
(10_state R141). -/

namespace Sys2Proof.Machine

/-- CS = 0100: positive. -/
def csPositive : BitVec 4 := 0b0100#4

/-- CS = 0010: zero. -/
def csZero : BitVec 4 := 0b0010#4

/-- CS = 0001: negative. -/
def csNegative : BitVec 4 := 0b0001#4

/-- CS = 1000: the limits of CBL are inverted (49_logic_compare_misc R735). -/
def csInverted : BitVec 4 := 0b1000#4

/-- `CS_sign`: zero, negative (the most significant bit is one) or positive, C = 0 (00_scope R116). -/
def csSign {w : Nat} (x : BitVec w) : BitVec 4 :=
  if x = 0#w then csZero else if x.msb then csNegative else csPositive

/-- `ArithCS`: the sign of the result with the carry (46_int_addsub R560). -/
def csArith {w : Nat} (carry : Bool) (r : BitVec w) : BitVec 4 :=
  if carry then csSign r ||| 0b1000#4 else csSign r

/-- CS of a comparison of two integers (49_logic_compare_misc, single and double precision compare). -/
def csCompare (a b : Int) : BitVec 4 :=
  if a = b then csZero else if a < b then csNegative else csPositive

/-- CS of Compare Between Limits (49_logic_compare_misc R735). -/
def csLimits (a lo hi : Int) : BitVec 4 :=
  if hi < lo then csInverted else if a < lo then csNegative else if hi < a then csPositive else csZero

/-- Bit n of a word, 0 the most significant (00_scope R110). -/
def bitAt (x : Word) (n : BitNo) : Bool := x.getLsbD (15 - n.val)

/-- The mask of bit n, `0x8000 >> n` (41_bit R400). -/
def bitMask (n : BitNo) : Word := 0x8000#16 >>> n.val

/-- `BitCS`: CS of a bit test (41_bit R400). -/
def csBit (x : Word) (n : BitNo) : BitVec 4 :=
  if bitAt x n then (if n.val = 0 then csNegative else csPositive) else csZero

/-- The carry out of an addition of two W-bit patterns (46_int_addsub R560). -/
def addCarry {w : Nat} (a b : BitVec w) : Bool := decide (2 ^ w ≤ a.toNat + b.toNat)

/-- Overflow of an addition: the operands have one sign and the sum the other (46_int_addsub R560). -/
def addOverflow {w : Nat} (a b : BitVec w) : Bool := a.msb == b.msb && (a + b).msb != a.msb

/-- The carry of a subtraction: one when there is no borrow (46_int_addsub R560). -/
def subCarry {w : Nat} (a b : BitVec w) : Bool := decide (b.toNat ≤ a.toNat)

/-- Overflow of a subtraction: the operands differ in sign and the difference has the sign of the subtrahend (46_int_addsub
R560). -/
def subOverflow {w : Nat} (a b : BitVec w) : Bool := a.msb != b.msb && (a - b).msb == b.msb

/-- Whether an integer is no W-bit two's complement number (47_int_muldiv R600). -/
def outsideSigned (w : Nat) (x : Int) : Bool := decide (x < -(2 : Int) ^ (w - 1)) || decide ((2 : Int) ^ (w - 1) ≤ x)

/-- `MulOvf_W` (47_int_muldiv R600). -/
def mulOverflow {w : Nat} (a b : BitVec w) : Bool := outsideSigned w (a.toInt * b.toInt)

/-- `SlaOvf`: the sign bit changes during a left shift by n positions (42_shift R431, decision D20, log 120). -/
def shiftOverflow {w : Nat} (x : BitVec w) (n : Nat) : Bool := outsideSigned w (x.toInt * (2 : Int) ^ n)

/-! ## The fields of the status word (10_state R140) -/

/-- CS, bits 0 to 3. -/
def csOf (sw : Word) : BitVec 4 := sw.extractLsb' 12 4

/-- PS, bits 8 to 11. -/
def psOf (sw : Word) : BitVec 4 := sw.extractLsb' 4 4

/-- AS, bits 12 to 15. -/
def asOf (sw : Word) : BitVec 4 := sw.extractLsb' 0 4

/-- The status word with another CS; its other bits are kept. -/
def withCS (sw : Word) (cs : BitVec 4) : Word := cs ++ sw.extractLsb' 0 12

/-- Write CS (10_state R142: all four bits). -/
def setCS (cs : BitVec 4) (s : State) : State := { s with sw := withCS s.sw cs }

end Sys2Proof.Machine
end

