-- ==== Sys2Proof/Machine/Memory.lean ====
section
/-! DEFINITION. Main memory: its canonical form, the reads and the writes of its bytes and words (20_memory R200, R201;
logs 2 and 3). -/

namespace Sys2Proof.Machine

/-- How many bytes the physical address space has: 2^20 words of two bytes (20_memory R205). -/
def memoryBytes : Nat := 2097152

/-- The canonical form from byte address `lo` on: addresses strictly rise and are in the address space, and no listed byte
equals what an unlisted address reads as. -/
def Memory.wfFrom : Nat → Memory → Bool
  | _, [] => true
  | lo, (a, v) :: rest =>
    decide (lo ≤ a) && decide (a < memoryBytes) && decide (v ≠ unlistedByte) && Memory.wfFrom (a + 1) rest

/-- The canonical form of memory. -/
def Memory.wf (m : Memory) : Bool := Memory.wfFrom 0 m

/-- The byte at a byte address. -/
def Memory.readByte : Memory → Nat → Byte
  | [], _ => unlistedByte
  | (b, v) :: rest, a => if a < b then unlistedByte else if a = b then v else Memory.readByte rest a

/-- Write a byte; a byte equal to what an unlisted address reads as is not listed. -/
def Memory.writeByte : Memory → Nat → Byte → Memory
  | [], a, v => if v = unlistedByte then [] else [(a, v)]
  | (b, w) :: rest, a, v =>
    if a < b then (if v = unlistedByte then (b, w) :: rest else (a, v) :: (b, w) :: rest)
    else if a = b then (if v = unlistedByte then rest else (a, v) :: rest)
    else (b, w) :: Memory.writeByte rest a v

/-- The word at a physical address: bits 0 to 7 are the byte at 2 p, bits 8 to 15 the byte at 2 p + 1 (log 3). -/
def Memory.readWord (m : Memory) (p : PAddr) : Word :=
  Memory.readByte m (2 * p.toNat) ++ Memory.readByte m (2 * p.toNat + 1)

/-- Write the word at a physical address. -/
def Memory.writeWord (m : Memory) (p : PAddr) (v : Word) : Memory :=
  Memory.writeByte (Memory.writeByte m (2 * p.toNat) (v.extractLsb' 8 8)) (2 * p.toNat + 1) (v.extractLsb' 0 8)

/-- The memory that holds the bytes of `image`, later entries over earlier ones, those outside the address space left
out. -/
def Memory.ofImage (image : List Host.Cell) : Memory :=
  image.foldl (fun m c => if c.1 < memoryBytes then Memory.writeByte m c.1 c.2 else m) []

end Sys2Proof.Machine
end

