-- ==== Sys2Proof/Machine/Access.lean ====
section
/-! DEFINITION. General registers (10_state R130 to R132), faults and interrupt requests (60_exceptions R780), the checks, the
translation and the effect of one memory reference (20_memory R205 to R226). -/

namespace Sys2Proof.Machine

/-! ## General registers -/

/-- The contents of a general register. -/
def State.reg (s : State) (r : Reg) : Word := s.regs.get r

/-- Write a general register. -/
def State.setReg (s : State) (r : Reg) (v : Word) : State := { s with regs := s.regs.set r.val v r.isLt }

/-- `RR(r)`: two adjacent registers, r the most significant, R15 followed by R0 (10_state R132). -/
def State.pair (s : State) (r : Reg) : DWord := s.reg r ++ s.reg (r + 1)

/-- `RRR(r)`: three adjacent registers (10_state R132). -/
def State.triple (s : State) (r : Reg) : TWord := (s.reg r ++ s.reg (r + 1)) ++ s.reg (r + 2)

/-- Write `RR(r)`. -/
def State.setPair (s : State) (r : Reg) (v : DWord) : State :=
  (s.setReg r (v.extractLsb' 16 16)).setReg (r + 1) (v.extractLsb' 0 16)

/-- Write `RRR(r)`. -/
def State.setTriple (s : State) (r : Reg) (v : TWord) : State :=
  ((s.setReg r (v.extractLsb' 32 16)).setReg (r + 1) (v.extractLsb' 16 16)).setReg (r + 2) (v.extractLsb' 0 16)

/-! ## Free values (93_implementation_defined section 2, log 7) -/

/-- A word the standard leaves open, fresh for each draw, and the state that has drawn it. -/
def drawWord (s : State) : Word × State := (Config.freeWord s.draws, { s with draws := s.draws + 1 })

/-- The word a device delivers to the input command `c` (`PIO_IN(c)`, 40_io R318, R373; log 10), fresh for each draw. -/
def drawInput (c : Word) (s : State) : Word × State := (Config.deviceInput c s.draws, { s with draws := s.draws + 1 })

/-! ## Faults and interrupt requests -/

/-- `raise Interrupt(n)`: the pending bit is set (00_scope R115, 60_exceptions R763). -/
def raiseInterrupt (n : BitNo) (s : State) : State := { s with pi := s.pi ||| bitMask n }

/-- `raise Fault(k)`: FT bit k and PI bit 1, or neither when the bit is not implemented (60_exceptions R780). -/
def raiseFault (k : BitNo) (s : State) : State :=
  if bitAt s.cfg.ftImplemented k then raiseInterrupt 1 { s with ft := s.ft ||| bitMask k } else s

/-- The fixed point overflow interrupt (60_exceptions R762). -/
def fixedOverflow : BitNo := 4

/-- The floating point overflow interrupt. -/
def floatOverflow : BitNo := 3

/-- The floating point underflow interrupt. -/
def floatUnderflow : BitNo := 6

/-- Raise an interrupt if a condition holds. -/
def raiseIf (c : Bool) (n : BitNo) (s : State) : State := if c then raiseInterrupt n s else s

/-! ## One memory reference (20_memory R205 to R226) -/

/-- Instruction references are the words read through IC; all others are operand references (20_memory R206). -/
inductive RefKind where
  | instr
  | oper
deriving DecidableEq, Repr

/-- With which page register set, group and key a reference is made. -/
structure Access where
  kind : RefKind
  group : BitVec 4
  key : BitVec 4
deriving DecidableEq, Repr

/-- Who makes a reference: the memory protect RAM has one half for each (20_memory R218). -/
inductive Agent where
  | cpu
  | dma
deriving DecidableEq, Repr

/-- Why a reference transfers nothing. -/
inductive RefFault where
  /-- The key does not open the lock (20_memory R211). -/
  | access
  /-- The page is execute protected (20_memory R212). -/
  | executeProtect
  /-- The page or the block is write protected (20_memory R213, R219, R220). -/
  | writeProtect
  /-- The physical word is not present (20_memory R216). -/
  | illegalAddress
  /-- The word read shows a parity error (20_memory R215). -/
  | parity
deriving DecidableEq, Repr

/-- Operand references of an instruction: group AS, key PS (20_memory R207, R211). -/
def operAccess (s : State) : Access := { kind := .oper, group := asOf s.sw, key := psOf s.sw }

/-- Instruction fetches: group AS, key PS. -/
def fetchAccess (s : State) : Access := { kind := .instr, group := asOf s.sw, key := psOf s.sw }

/-- Vector table and service references: operand set of group 0, key 0 (20_memory R207). -/
def vectorAccess : Access := { kind := .oper, group := 0#4, key := 0#4 }

/-- Linkage stores: operand set of the group named by the new status word, key 0 (20_memory R207). -/
def linkageAccess (newSW : Word) : Access := { kind := .oper, group := asOf newSW, key := 0#4 }

/-- Whether an AS value names an implemented group (10_state R145, 20_memory R210). -/
def groupImplemented (c : Config) (g : BitVec 4) : Bool :=
  match c.expanded with
  | none => decide (g = 0#4)
  | some x => decide (g.toNat < x.groups.toNat)

/-- The set of page registers of one kind in a group. -/
def PageGroup.setOf (g : PageGroup) : RefKind → Vector Word 16
  | .instr => g.instr
  | .oper => g.oper

/-- The page register `PAGE[g][kind][y]`. -/
def pageRegister (s : State) (kind : RefKind) (g y : BitVec 4) : Word := ((s.pages.get g.toFin).setOf kind).get y.toFin

/-- What a page register stores of a word: bits 5 to 7 are zero, and AL too without the lock feature (20_memory R209). -/
def pageWord (k : Config) (w : Word) : Word :=
  match k.expanded with
  | none => w &&& 0x08FF#16
  | some x => if x.lockKey then w &&& 0xF8FF#16 else w &&& 0x08FF#16

/-- The page register a reference goes through: the one selected by the four top address bits (20_memory R205); in a group
that is not implemented, the identity mapping (decision D2, log 102). -/
def selectedPage (s : State) (a : Access) (logical : Word) : Word :=
  if groupImplemented s.cfg a.group then pageRegister s a.kind a.group (logical.extractLsb' 12 4)
  else (logical.extractLsb' 12 4).zeroExtend 16

/-- The physical address of a reference (20_memory R205). -/
def translate (s : State) (a : Access) (logical : Word) : PAddr :=
  match s.cfg.expanded with
  | none => logical.zeroExtend 20
  | some _ => (selectedPage s a logical).extractLsb' 0 8 ++ logical.extractLsb' 0 12

/-- `KeyOK`: Table VII (20_memory R211). -/
def keyOk (lock key : BitVec 4) : Bool := decide (key = 0x0#4) || decide (lock = 0xF#4) || decide (lock = key)

/-- What the page register forbids: the key first, then E or W (20_memory R211 to R213, R226). -/
def pageFault (s : State) (a : Access) (wr : Bool) (logical : Word) : Option RefFault :=
  match s.cfg.expanded with
  | none => none
  | some x =>
    let page := selectedPage s a logical
    if x.lockKey && !keyOk (page.extractLsb' 12 4) a.key then some .access
    else if a.kind = .instr then (if bitAt page 4 then some .executeProtect else none)
    else if wr && bitAt page 4 then some .writeProtect
    else none

/-- The number of the first word of an agent's half of the memory protect RAM. -/
def Agent.mprotBase : Agent → Nat
  | .cpu => 0
  | .dma => 64

/-- The index into the memory protect RAM for a physical word (20_memory R218). -/
def mprotIndex (g : Agent) (p : PAddr) : Fin 128 := Fin.ofNat 128 (g.mprotBase + p.toNat / 1024 / 16)

/-- Whether a set bit of the memory protect RAM protects the block of a physical word (20_memory R218). -/
def blockProtected (s : State) (g : Agent) (p : PAddr) : Bool :=
  bitAt (s.mprot.get (mprotIndex g p)) (Fin.ofNat 16 (p.toNat / 1024))

/-- Whether a write to a physical word is refused as protected: by the RAM when it is enabled, by the reset state of the
RAM before that (20_memory R219, R220). -/
def writeProtected (s : State) (g : Agent) (p : PAddr) : Bool :=
  s.cfg.memProtectRam && (if s.mprotEn then blockProtected s g p else s.cfg.mprotResetGlobal)

/-- `PHYS_PRESENT` (20_memory R216); without expanded memory a physical address has 16 bits (R205). -/
def physPresent (c : Config) (p : PAddr) : Bool :=
  (c.expanded.isSome || decide (p.toNat < 65536)) &&
    !c.absent.any fun r => decide (r.1 ≤ p.toNat) && decide (p.toNat < r.1 + r.2)

/-- Whether a reference to a physical word may go on after the page check, and if not why (20_memory R226). -/
def physFault (s : State) (g : Agent) (wr : Bool) (p : PAddr) : Option RefFault :=
  if wr && writeProtected s g p then some .writeProtect
  else if !physPresent s.cfg p then some .illegalAddress
  else if !wr && s.cfg.parity && s.parityBad.contains p.toNat then some .parity
  else none

/-- The checks of one reference by logical address, in the order of 20_memory R226 (decision D12). -/
def refFault (s : State) (g : Agent) (a : Access) (wr : Bool) (logical : Word) : Option RefFault :=
  match pageFault s a wr logical with
  | some f => some f
  | none => physFault s g wr (translate s a logical)

/-- The word the start-up ROM holds at a physical address, if it is implemented and enabled (20_memory R223). -/
def romWord (s : State) (p : PAddr) : Option Word :=
  match s.cfg.rom with
  | none => none
  | some rom => if s.romEn && decide (p.toNat < 65536) then rom[p.toNat]? else none

/-- `PhysRead` (20_memory R223). -/
def physRead (s : State) (p : PAddr) : Word :=
  match romWord s p with
  | some w => w
  | none => Memory.readWord s.mem p

/-- `PhysWrite`: never the ROM (20_memory R223). -/
def physWrite (s : State) (p : PAddr) (v : Word) : State := { s with mem := Memory.writeWord s.mem p v }

/-- The FT bit of a reference fault (20_memory R211 to R216). -/
def RefFault.ftBit : RefFault → Agent → BitNo
  | .illegalAddress, _ => 8
  | .parity, _ => 2
  | _, .cpu => 0
  | _, .dma => 1

/-- Capture the memory fault status: page register number, kind of reference, group (20_memory R217). -/
def captureMfsr (lpa : BitVec 4) (kind : RefKind) (group : BitVec 4) (s : State) : State :=
  match s.cfg.mfsr with
  | none => s
  | some l =>
    { s with mfsr := ((lpa.zeroExtend 16 <<< l.lpa) ||| ((if kind = .instr then 1#16 else 0#16) <<< l.io)) |||
        (group.zeroExtend 16 <<< l.asField) }

/-- The group the MFSR shows: 0 without expanded memory (20_memory R217). -/
def mfsrGroup (s : State) (a : Access) : BitVec 4 := if s.cfg.expanded.isSome then a.group else 0#4

/-- What a faulting reference by logical address leaves: its FT bit, PI bit 1, the MFSR. -/
def memFault (g : Agent) (a : Access) (logical : Word) (f : RefFault) (s : State) : State :=
  captureMfsr (logical.extractLsb' 12 4) a.kind (mfsrGroup s a) (raiseFault (f.ftBit g) s)

/-- One CPU read (20_memory R226); `.error` holds the state in which the instruction is abandoned (R222). -/
def readNow (a : Access) (logical : Word) (s : State) : Except State Word :=
  match refFault s .cpu a false logical with
  | some f => .error (memFault .cpu a logical f s)
  | none => .ok (physRead s (translate s a logical))

/-- One CPU write (20_memory R226): a write protected store is suppressed and the instruction goes on, any other fault
abandons it (R222). -/
def writeNow (a : Access) (logical v : Word) (s : State) : Except State State :=
  match refFault s .cpu a true logical with
  | some .writeProtect => .ok (memFault .cpu a logical .writeProtect s)
  | some f => .error (memFault .cpu a logical f s)
  | none => .ok (physWrite s (translate s a logical) v)

end Sys2Proof.Machine
end

