-- ==== Sys2Proof/Machine/Events.lean ====
section
/-! DEFINITION. What the environment does between two word references of the CPU (60_exceptions R763, R782, R812, R815 to
R818; 20_memory R214, R215, R229, R232; 70_reset_and_hazards R840; logs 6, 11, 15, 16, 23, 24). -/

namespace Sys2Proof.Machine

/-! ## Timers (60_exceptions R815, R816, R818) -/

/-- One count of timer A, interrupt 7 when it rolls over. -/
def tickTimerA (s : State) : State :=
  if s.cfg.timers && s.timers.taRun && !s.halted then
    raiseIf (decide (s.timers.ta = 0xFFFF#16)) 7 { s with timers := { s.timers with ta := s.timers.ta + 1 } }
  else s

/-- One count of timer B, interrupt 9 when it rolls over. -/
def tickTimerB (s : State) : State :=
  if s.cfg.timers && s.timers.tbRun && !s.halted then
    raiseIf (decide (s.timers.tb = 0xFFFF#16)) 9 { s with timers := { s.timers with tb := s.timers.tb + 1 } }
  else s

/-! ## Interrupt requests (60_exceptions R763, R812) -/

/-- The interrupts with an external source of their own: power down and the spare ones (60_exceptions R763). -/
def externalInterrupts : List BitNo := [0, 2, 8, 10, 11, 13, 15]

/-- An external request sets its pending bit whatever MK and IE hold. -/
def externalRequest (n : BitNo) (s : State) : State := raiseIf (externalInterrupts.contains n) n s

/-- An I/O channel requests level 1 or 2; the code register takes the channel unless it is frozen (60_exceptions R812). -/
def channelRequest (level2 : Bool) (channel : BitVec 7) (s : State) : State :=
  if level2 then
    raiseInterrupt 14 (if s.cfg.ioic && !s.ioic.frozen2 then { s with ioic := { s.ioic with code2 := channel } } else s)
  else
    raiseInterrupt 12 (if s.cfg.ioic && !s.ioic.frozen1 then { s with ioic := { s.ioic with code1 := channel } } else s)

/-- The FT bits that the platform sets (60_exceptions R782). -/
def platformFaultBits : List BitNo := [3, 4, 6, 13, 14, 15]

/-- A fault that the platform reports. -/
def platformFault (k : BitNo) (s : State) : State := if platformFaultBits.contains k then raiseFault k s else s

/-! ## Device accesses (20_memory R214, R218, R219, R232) -/

/-- The effect of a device access that passed its checks. -/
def deviceTransfer (p : PAddr) (op : DeviceOp) (s : State) : State :=
  match op with
  | .read => { s with outputs := .deviceData (physRead s p) :: s.outputs }
  | .write v => physWrite s p v

/-- Whether a device writes. -/
def DeviceOp.isWrite : DeviceOp → Bool
  | .read => false
  | .write _ => true

/-- The page register number a physical address names, the top four bits of the address used: of 20 bits with expanded
memory, of 16 without (20_memory R205, R217). -/
def physicalPage (c : Config) (p : PAddr) : BitVec 4 :=
  if c.expanded.isSome then p.extractLsb' 16 4 else p.extractLsb' 12 4

/-- One reference of a device: a mapped one is translated and checked like a CPU operand reference, a physical one is checked
by the DMA half of the memory protect RAM and for presence; FT bit 1 in place of bit 0 (20_memory R214). -/
def deviceAccess (d : DeviceAddress) (op : DeviceOp) (s : State) : State :=
  if s.cfg.dma && s.dmaEn then
    match d with
    | .mapped group key logical =>
      let a : Access := { kind := .oper, group := group, key := key }
      match refFault s .dma a op.isWrite logical with
      | some f => memFault .dma a logical f s
      | none => deviceTransfer (translate s a logical) op s
    | .unmapped p =>
      match physFault s .dma op.isWrite p with
      | some f => captureMfsr (physicalPage s.cfg p) .oper 0x0#4 (raiseFault (f.ftBit .dma) s)
      | none => deviceTransfer p op s
  else s

/-! ## Reset (70_reset_and_hazards R840) -/

/-- The free value that a reset gives the i-th item that Table VI leaves open (log 15). -/
def resetDraw (s : State) (i : Nat) : Word := Config.freeWord (s.draws + i)

/-- How many free values one reset draws. -/
def resetDraws : Nat := 23

/-- `Reset`: the tabulated values of 10_state R165, free values for the items it leaves open; main memory and NPU as the
kind of reset says. What the environment holds (the schedule, the outputs, the parity errors, the connected console) is not
the processor's and stays. -/
def resetEvent (mem : Memory) (npu : Bool) (s : State) : State :=
  { State.resetWith s.cfg with
    regs := #v[resetDraw s 0, resetDraw s 1, resetDraw s 2, resetDraw s 3, resetDraw s 4, resetDraw s 5, resetDraw s 6,
      resetDraw s 7, resetDraw s 8, resetDraw s 9, resetDraw s 10, resetDraw s 11, resetDraw s 12, resetDraw s 13,
      resetDraw s 14, resetDraw s 15]
    din := resetDraw s 16
    ioic := { code1 := (resetDraw s 17).extractLsb' 0 7, code2 := (resetDraw s 18).extractLsb' 0 7, frozen1 := false,
              frozen2 := false }
    mfsr := resetDraw s 19
    pobuf := resetDraw s 20
    console := { data := resetDraw s 21, status := resetDraw s 22, connected := s.console.connected }
    mem := mem
    npu := npu
    parityBad := s.parityBad
    env := s.env
    outputs := s.outputs
    draws := s.draws + resetDraws }

/-! ## All events -/

/-- One event; none when power is lost. -/
def applyEvent (e : Event) (s : State) : Option State :=
  match e with
  | .tickA => some (tickTimerA s)
  | .tickB => some (tickTimerB s)
  | .request n => some (externalRequest n s)
  | .ioRequest level2 channel => some (channelRequest level2 channel s)
  | .device d op => some (deviceAccess d op s)
  | .platformFault k => some (platformFault k s)
  | .parityError p => some { s with parityBad := p.toNat :: s.parityBad }
  | .parityClear p => some { s with parityBad := s.parityBad.filter fun q => decide (q ≠ p.toNat) }
  | .discreteInput w => some { s with din := w }
  | .consoleData w => some { s with console := { s.console with data := w } }
  | .consoleStatus w => some { s with console := { s.console with status := w } }
  | .consoleConnected b => some { s with console := { s.console with connected := b } }
  | .consoleRestart => some { s with halted := false }
  | .goTimeout => some { s with goRun := false }
  | .systemReset => some (resetEvent s.mem s.npu s)
  | .powerUp image => some (resetEvent (Memory.ofImage image) true s)
  | .powerLoss => none

/-- Whether an event is a reset, which ends what the processor is doing (70_reset_and_hazards R840). -/
def Event.isReset : Event → Bool
  | .systemReset => true
  | .powerUp _ => true
  | _ => false

/-- The events of one turn, in order; `.error` holds how the step ends: at the loss of power, or with a reset, whose next
fetch is that at IC = 0. No event falls into the boundary that ends such a step; those left of the turn make the turn after
it (log 6). -/
def applyEvents : List Event → State → Except Out State
  | [], s => .ok s
  | e :: rest, s =>
    match applyEvent e s with
    | none => .error (.fault .powerOff)
    | some t => if e.isReset then .error (.next { t with env := [] :: rest :: t.env }) else applyEvents rest t

/-- A turn of the environment: what the schedule has before the next word reference (20_memory R229, 60_exceptions R818). -/
def takeTurn (s : State) : Except Out State :=
  match s.env with
  | [] => .ok s
  | now :: later => applyEvents now { s with env := later }

end Sys2Proof.Machine
end

