-- ==== Sys2Proof/Machine/Ops.lean ====
section
/-! DEFINITION. The operations every instruction is written with: one memory reference and the turn of the environment
before it (20_memory R226, R229), taking an interrupt (60_exceptions R772, 43_jump_branch R463), the load of a new state,
which is the return from one (43_jump_branch R464), and the boundary (60_exceptions R770). -/

namespace Sys2Proof.Machine

/-! ## References of the CPU, each after a turn of the environment (20_memory R229, log 6)

`.error` holds how the step ends: in the state in which a fault abandons the instruction (20_memory R222), in the state a
reset leaves, or at the loss of power. -/

/-- Go on with the value that references gave, or end the step. -/
def andThen {α : Type} (r : Except Out α) (k : α → Out) : Out :=
  match r with
  | .ok v => k v
  | .error o => o

/-- A reference that faults ends the step in the state the fault leaves. -/
def orAbandon {α : Type} (r : Except State α) : Except Out α :=
  match r with
  | .ok v => .ok v
  | .error s => .error (.next s)

/-- The environment's turn, then one CPU read: the word, and the state after the turn. -/
def readRef (a : Access) (logical : Word) (s : State) : Except Out (Word × State) :=
  match takeTurn s with
  | .error o => .error o
  | .ok u =>
    match readNow a logical u with
    | .ok w => .ok (w, u)
    | .error e => .error (.next e)

/-- The environment's turn, then one CPU write. -/
def writeRef (a : Access) (logical v : Word) (s : State) : Except Out State :=
  match takeTurn s with
  | .error o => .error o
  | .ok u => orAbandon (writeNow a logical v u)

/-- Read one operand word. -/
def load (a : Word) (s : State) : Except Out (Word × State) := readRef (operAccess s) a s

/-- Write one operand word. -/
def store (a v : Word) (s : State) : Except Out State := writeRef (operAccess s) a v s

/-- Write one operand word with no turn of the environment before it (20_memory R228). -/
def storeNow (a v : Word) (s : State) : Except Out State := orAbandon (writeNow (operAccess s) a v s)

/-- Read two words, the first the most significant, in ascending order (20_memory R231, decision D10). -/
def load2 (a : Word) (s : State) : Except Out (DWord × State) :=
  match load a s with
  | .error o => .error o
  | .ok (x, s1) =>
    match load (a + 1) s1 with
    | .error o => .error o
    | .ok (y, s2) => .ok (x ++ y, s2)

/-- Read three words. -/
def load3 (a : Word) (s : State) : Except Out (TWord × State) :=
  match load2 a s with
  | .error o => .error o
  | .ok (x, s2) =>
    match load (a + 2) s2 with
    | .error o => .error o
    | .ok (y, s3) => .ok (x ++ y, s3)

/-- Write the words of a list to ascending addresses (20_memory R231). -/
def storeWords (a : Word) : List Word → State → Except Out State
  | [], s => .ok s
  | v :: rest, s =>
    match store a v s with
    | .error o => .error o
    | .ok s' => storeWords (a + 1) rest s'

/-- Go on with the operand of one word at an address. -/
def withWord (a : Word) (s : State) (k : Word → State → Out) : Out := andThen (load a s) fun r => k r.1 r.2

/-- Go on with the operand of two words at an address. -/
def withDouble (a : Word) (s : State) (k : DWord → State → Out) : Out := andThen (load2 a s) fun r => k r.1 r.2

/-- Go on with the operand of three words at an address. -/
def withTriple (a : Word) (s : State) (k : TWord → State → Out) : Out := andThen (load3 a s) fun r => k r.1 r.2

/-- Store words at ascending addresses and end the instruction. -/
def storeAll (a : Word) (ws : List Word) (s : State) : Out := andThen (storeWords a ws s) .next

/-! ## Loading a new state, taking an interrupt, returning from one -/

/-- Load the whole status word; an AS that is not implemented is loaded too and raises Fault 11 (10_state R143, R146). -/
def loadSW (v : Word) (s : State) : State :=
  let s' := { s with sw := v }
  if groupImplemented s.cfg (asOf v) then s' else raiseFault 11 s'

/-- `(MK, SW, IC) <- ...`: what LST, LSTI, BEX and the interrupt sequence load (43_jump_branch R464). -/
def loadStatus (m w i : Word) (s : State) : State := loadSW w { s with mask := m, ic := i }

/-- One read of the interrupt sequence: a faulting read delivers a free value and the sequence goes on (60_exceptions R776,
log 9). -/
def vectorRead (a : Word) (s : State) : Except Out (Word × State) :=
  match takeTurn s with
  | .error o => .error o
  | .ok u =>
    match readNow vectorAccess a u with
    | .ok v => .ok (v, u)
    | .error e => .ok (drawWord e)

/-- One store of the interrupt sequence: a faulting store stores nothing and the sequence goes on (60_exceptions R776). -/
def linkageWrite (newSW a v : Word) (s : State) : Except Out State :=
  match takeTurn s with
  | .error o => .error o
  | .ok u =>
    match writeNow (linkageAccess newSW) a v u with
    | .ok t => .ok t
    | .error e => .ok e

/-- The linkage pointer of interrupt n is at `0x20 + 2n` (60_exceptions R762). -/
def linkagePointer (n : BitNo) : Word := 0x0020#16 + BitVec.ofNat 16 (2 * n.val)

/-- The service pointer of interrupt n is at `0x21 + 2n` (60_exceptions R762). -/
def servicePointer (n : BitNo) : Word := 0x0021#16 + BitVec.ofNat 16 (2 * n.val)

/-- `IE <- 0; ENBL_PENDING <- 0` (60_exceptions R773). -/
def disableInterrupts (s : State) : State := { s with ie := false, enblPending := false, enblIssued := false }

/-- From the start of the sequence of interrupt 12 (14) IOIC1 (IOIC2) is frozen until it is read (60_exceptions R812). -/
def freezeIoic (n : BitNo) (s : State) : State :=
  if n = 12 then { s with ioic := { s.ioic with frozen1 := true } }
  else if n = 14 then { s with ioic := { s.ioic with frozen2 := true } }
  else s

/-- Go on with the word a read of the interrupt sequence gave. -/
def withVector (a : Word) (s : State) (k : Word → State → Out) : Out := andThen (vectorRead a s) fun r => k r.1 r.2

/-- TAKING AN INTERRUPT, shared by the interrupt sequence (60_exceptions R772, off = 0) and BEX (43_jump_branch R463, n = 5,
off = N): five reads in group 0 with key 0, three stores of the old MK, SW, IC in the group of the new SW, what then becomes
of the request, then the new MK, SW, IC are loaded and interrupts are disabled. -/
def takeVector (n : BitNo) (off : Word) (request : State → State) (old : State) : Out :=
  withVector (servicePointer n) old fun svp s =>
  withVector svp s fun newMK s =>
  withVector (svp + 1) s fun newSW s =>
  withVector (svp + 2 + off) s fun newIC s =>
  withVector (linkagePointer n) s fun lp s =>
  andThen (linkageWrite newSW lp old.mask s) fun s =>
  andThen (linkageWrite newSW (lp + 1) old.sw s) fun s =>
  andThen (linkageWrite newSW (lp + 2) old.ic s) fun s =>
  .next (disableInterrupts (loadStatus newMK newSW newIC (request s)))

/-- `PI<n> <- 0`. -/
def clearPending (n : BitNo) (s : State) : State := { s with pi := s.pi &&& ~~~bitMask n }

/-- `InterruptSequence(n)` (60_exceptions R772): PI bit n is cleared after the references; that of the machine error before
them, so that a fault of one of them stays pending (R776, log 25). -/
def interruptSequence (n : BitNo) (s : State) : Out :=
  if n = 1 then takeVector 1 0x0000#16 (fun t => t) (clearPending 1 s)
  else takeVector n 0x0000#16 (clearPending n) (freezeIoic n s)

/-- RETURNING: read three words at `a` with the AS and PS in force, then load MK, SW and IC from them (43_jump_branch R464,
60_exceptions R777). -/
def returnFrom (a : Word) (s : State) : Out :=
  withWord a s fun m s =>
  withWord (a + 1) s fun w s =>
  withWord (a + 2) s fun i s =>
  .next (loadStatus m w i s)

/-- The privilege check, the first step of XIO, VIO, LST and LSTI (60_exceptions R800). -/
def privileged (s : State) (k : Out) : Out := if psOf s.sw = 0x0#4 then k else .next (raiseFault 10 s)

/-! ## The instruction boundary (60_exceptions R765, R770, R771) -/

/-- `Eligible(n)` (60_exceptions R765). -/
def eligible (s : State) (n : BitNo) : Bool :=
  bitAt s.pi n && !bitAt s.piHold n &&
    (if n = 0 ∨ n = 5 then true else if n = 1 then bitAt s.mask 1 else bitAt s.mask n && s.ie)

/-- The interrupt numbers in order of priority (60_exceptions R762). -/
def interruptNumbers : List BitNo := [0, 1, 2, 3, 4, 5, 6, 7, 8, 9, 10, 11, 12, 13, 14, 15]

/-- The interrupt to take now (60_exceptions R771). -/
def nextInterrupt (s : State) : Option BitNo := interruptNumbers.find? (eligible s)

/-- Step 1 of the boundary: an ENBL that an earlier instruction issued takes effect (10_state R161). -/
def delayedEnable (s : State) : State :=
  if s.enblPending && !s.enblIssued then { s with ie := true, enblPending := false } else { s with enblIssued := false }

/-- The steps 1 to 3 of `Boundary`: the delayed enable, then at most one interrupt sequence; none while halted
(60_exceptions R770, 10_state R159, log 13). -/
def recognize (s : State) : Out :=
  let s1 := delayedEnable s
  let s2 := { s1 with piHold := 0x0000#16 }
  if s1.halted then .next s2
  else
    match nextInterrupt s1 with
    | none => .next s2
    | some n => interruptSequence n s2

/-- `Boundary`: what the environment does after the last reference of the instruction is seen by the recognition. -/
def boundary (s : State) : Out := andThen (takeTurn s) recognize

/-- The boundary after an instruction that gave a next state; nothing after one that did not. -/
def atBoundary (o : Out) : Out :=
  match o with
  | .next s => boundary s
  | .fault f => .fault f
  | .refused r => .refused r

end Sys2Proof.Machine
end

