-- ==== Sys2Proof/Machine/Operands.lean ====
section
/-! DEFINITION. The derived address DA and the derived operand DO of every addressing mode (30_encoding R262 to R274). Every
address is formed from the register values that hold when the instruction starts (R274). -/

namespace Sys2Proof.Machine

/-- `X(RX)`: the index register, or zero when RX = 0 (30_encoding R264). -/
def index (rx : Reg) (s : State) : Word := if rx = 0 then 0x0000#16 else s.reg rx

/-- DA of D and DX, and the operand of IM and IMX (30_encoding R264, R266). -/
def daLong (rx : Reg) (addr : Word) (s : State) : Word := addr + index rx s

/-- DA of I and IX: the pointer word, one operand read (30_encoding R265). -/
def daIndirect (rx : Reg) (addr : Word) (s : State) : Except Out (Word × State) := load (daLong rx addr s) s

/-- DA of B (30_encoding R270). -/
def daBase (br : Reg) (dspl : Byte) (s : State) : Word := s.reg br + dspl.zeroExtend 16

/-- DA of BX (30_encoding R271). -/
def daBaseIndexed (br rx : Reg) (s : State) : Word := s.reg br + index rx s

/-- IC0, the address of a one-word instruction that is executing: IC has passed it (10_state R137). -/
def currentAddress (s : State) : Word := s.ic - 1

/-- DA of ICR (30_encoding R269). -/
def daIcRelative (d : Byte) (s : State) : Word := currentAddress s + d.signExtend 16

/-- The operand of ISP: N, 1 to 16 (30_encoding R267). -/
def shortPositive (n : Nat) : Word := BitVec.ofNat 16 n

/-- The operand of ISN: -N (30_encoding R268). -/
def shortNegative (n : Nat) : Word := -BitVec.ofNat 16 n

/-- A four-bit field as a word (45_store R525). -/
def smallConstant (n : Fin 16) : Word := BitVec.ofNat 16 n.val

/-- The bit number in the least significant four bits of a register (41_bit R400). -/
def bitNumberOf (x : Word) : BitNo := (x.extractLsb' 0 4).toFin

/-- Words a 32-bit operand is stored as, most significant first. -/
def wordsOf2 (v : DWord) : List Word := [v.extractLsb' 16 16, v.extractLsb' 0 16]

/-- Words a 48-bit operand is stored as, most significant first. -/
def wordsOf3 (v : TWord) : List Word := [v.extractLsb' 32 16, v.extractLsb' 16 16, v.extractLsb' 0 16]

/-- The register number `r + i`, modulo 16 (10_state R132). -/
def regPlus (r : Reg) (i : Nat) : Reg := Fin.ofNat 16 (r.val + i)

/-- Go on with the address that the pointer word of I and IX holds. -/
def withPointer (rx : Reg) (addr : Word) (s : State) (k : Word → State → Out) : Out :=
  andThen (daIndirect rx addr s) fun r => k r.1 r.2

/-- Read the word at `a` and write a function of it back: two references; what another agent writes between them is lost
(20_memory R228, 41_bit R400, 45_store R520). -/
def updateWord (a : Word) (f : Word → Word) (s : State) : Out := withWord a s fun t u => storeAll a [f t] u

end Sys2Proof.Machine
end

