-- ==== Sys2Proof/Machine/AddSub.lean ====
section
/-! DEFINITION. Integer add, subtract, absolute value and negate (46_int_addsub). -/

namespace Sys2Proof.Machine

/-- Leave the result of an addition or a subtraction in a register, CS from it and the carry, the overflow interrupt
(46_int_addsub R560). -/
def putSum (ra : Reg) (r : Word) (carry ovf : Bool) (s : State) : State :=
  raiseIf ovf fixedOverflow (setCS (csArith carry r) (s.setReg ra r))

/-- The same for a register pair. -/
def putSum2 (ra : Reg) (r : DWord) (carry ovf : Bool) (s : State) : State :=
  raiseIf ovf fixedOverflow (setCS (csArith carry r) (s.setPair ra r))

/-- `R[RA] <- R[RA] + d` (46_int_addsub, single precision add). -/
def addTo (ra : Reg) (d : Word) (s : State) : State :=
  putSum ra (s.reg ra + d) (addCarry (s.reg ra) d) (addOverflow (s.reg ra) d) s

/-- `R[RA] <- R[RA] - d` (46_int_addsub, single precision subtract). -/
def subFrom (ra : Reg) (d : Word) (s : State) : State :=
  putSum ra (s.reg ra - d) (subCarry (s.reg ra) d) (subOverflow (s.reg ra) d) s

/-- `RR(RA) <- RR(RA) + d` (46_int_addsub, double precision add). -/
def addTo2 (ra : Reg) (d : DWord) (s : State) : State :=
  putSum2 ra (s.pair ra + d) (addCarry (s.pair ra) d) (addOverflow (s.pair ra) d) s

/-- `RR(RA) <- RR(RA) - d` (46_int_addsub, double precision subtract). -/
def subFrom2 (ra : Reg) (d : DWord) (s : State) : State :=
  putSum2 ra (s.pair ra - d) (subCarry (s.pair ra) d) (subOverflow (s.pair ra) d) s

/-- AR (46_int_addsub R561). -/
def execAr (ra rb : Reg) (s : State) : Out := .next (addTo ra (s.reg rb) s)

/-- AB (46_int_addsub R562). -/
def execAb (br : Reg) (dspl : Byte) (s : State) : Out := withWord (daBase br dspl s) s fun d s => .next (addTo 2 d s)

/-- ABX (46_int_addsub R563). -/
def execAbx (br rx : Reg) (s : State) : Out := withWord (daBaseIndexed br rx s) s fun d s => .next (addTo 2 d s)

/-- AISP (46_int_addsub R564). -/
def execAisp (ra : Reg) (n : Nat) (s : State) : Out := .next (addTo ra (shortPositive n) s)

/-- A (46_int_addsub R565). -/
def execA (ra rx : Reg) (addr : Word) (s : State) : Out := withWord (daLong rx addr s) s fun d s => .next (addTo ra d s)

/-- AIM (46_int_addsub R566). -/
def execAim (ra : Reg) (data : Word) (s : State) : Out := .next (addTo ra data s)

/-- Write the result of a memory increment or decrement back, then CS and the overflow interrupt, also when the store was
suppressed (46_int_addsub R567). -/
def storeSum (a r : Word) (carry ovf : Bool) (s : State) : Out :=
  andThen (store a r s) fun s' => .next (raiseIf ovf fixedOverflow (setCS (csArith carry r) s'))

/-- INCM (46_int_addsub R567). -/
def execIncm (n : Nat) (rx : Reg) (addr : Word) (s : State) : Out :=
  withWord (daLong rx addr s) s fun t s =>
    storeSum (daLong rx addr s) (t + shortPositive n) (addCarry t (shortPositive n)) (addOverflow t (shortPositive n)) s

/-- The absolute value of a pattern; the most negative one is its own (46_int_addsub R568). -/
def absoluteValue {w : Nat} (d : BitVec w) : BitVec w := if d.msb then -d else d

/-- ABS (46_int_addsub R568, decision D25). -/
def execAbs (ra rb : Reg) (s : State) : Out :=
  let d := s.reg rb
  let r := absoluteValue d
  .next (raiseIf (decide (d = 0x8000#16)) fixedOverflow (setCS (csSign r) (s.setReg ra r)))

/-- DABS (46_int_addsub R569, decision D25). -/
def execDabs (ra rb : Reg) (s : State) : Out :=
  let d := s.pair rb
  let r := absoluteValue d
  .next (raiseIf (decide (d = 0x80000000#32)) fixedOverflow (setCS (csSign r) (s.setPair ra r)))

/-- DAR (46_int_addsub R570). -/
def execDar (ra rb : Reg) (s : State) : Out := .next (addTo2 ra (s.pair rb) s)

/-- DA (46_int_addsub R571). -/
def execDa (ra rx : Reg) (addr : Word) (s : State) : Out :=
  withDouble (daLong rx addr s) s fun d s => .next (addTo2 ra d s)

/-- SR (46_int_addsub R572). -/
def execSr (ra rb : Reg) (s : State) : Out := .next (subFrom ra (s.reg rb) s)

/-- SBB (46_int_addsub R573). -/
def execSbb (br : Reg) (dspl : Byte) (s : State) : Out := withWord (daBase br dspl s) s fun d s => .next (subFrom 2 d s)

/-- SBBX (46_int_addsub R574). -/
def execSbbx (br rx : Reg) (s : State) : Out := withWord (daBaseIndexed br rx s) s fun d s => .next (subFrom 2 d s)

/-- SISP (46_int_addsub R575). -/
def execSisp (ra : Reg) (n : Nat) (s : State) : Out := .next (subFrom ra (shortPositive n) s)

/-- S (46_int_addsub R576). -/
def execS (ra rx : Reg) (addr : Word) (s : State) : Out := withWord (daLong rx addr s) s fun d s => .next (subFrom ra d s)

/-- SIM (46_int_addsub R577). -/
def execSim (ra : Reg) (data : Word) (s : State) : Out := .next (subFrom ra data s)

/-- DECM (46_int_addsub R578). -/
def execDecm (n : Nat) (rx : Reg) (addr : Word) (s : State) : Out :=
  withWord (daLong rx addr s) s fun t s =>
    storeSum (daLong rx addr s) (t - shortPositive n) (subCarry t (shortPositive n)) (subOverflow t (shortPositive n)) s

/-- NEG (46_int_addsub R579, decision D25). -/
def execNeg (ra rb : Reg) (s : State) : Out :=
  let d := s.reg rb
  .next (raiseIf (decide (d = 0x8000#16)) fixedOverflow (setCS (csSign (-d)) (s.setReg ra (-d))))

/-- DNEG (46_int_addsub R580, decision D25). -/
def execDneg (ra rb : Reg) (s : State) : Out :=
  let d := s.pair rb
  .next (raiseIf (decide (d = 0x80000000#32)) fixedOverflow (setCS (csSign (-d)) (s.setPair ra (-d))))

/-- DSR (46_int_addsub R581). -/
def execDsr (ra rb : Reg) (s : State) : Out := .next (subFrom2 ra (s.pair rb) s)

/-- DS (46_int_addsub R582). -/
def execDs (ra rx : Reg) (addr : Word) (s : State) : Out :=
  withDouble (daLong rx addr s) s fun d s => .next (subFrom2 ra d s)

end Sys2Proof.Machine
end

