-- ==== Sys2Proof/Machine/Bit.lean ====
section
/-! DEFINITION. Bit instructions (41_bit). -/

namespace Sys2Proof.Machine

/-- Bit n set to one (41_bit R401). -/
def withBit (x : Word) (n : BitNo) : Word := x ||| bitMask n

/-- Bit n set to zero (41_bit R404). -/
def withoutBit (x : Word) (n : BitNo) : Word := x &&& ~~~bitMask n

/-- Test bit n of the word at `a` (41_bit R408). -/
def testWord (a : Word) (n : BitNo) (s : State) : Out := withWord a s fun t s => .next (setCS (csBit t n) s)

/-- SBR (41_bit R401). -/
def execSbr (n : BitNo) (rb : Reg) (s : State) : Out := .next (s.setReg rb (withBit (s.reg rb) n))

/-- SB (41_bit R402). -/
def execSb (n : Fin 16) (rx : Reg) (addr : Word) (s : State) : Out :=
  updateWord (daLong rx addr s) (fun t => withBit t n) s

/-- SBI (41_bit R403). -/
def execSbi (n : Fin 16) (rx : Reg) (addr : Word) (s : State) : Out :=
  withPointer rx addr s fun a s => updateWord a (fun t => withBit t n) s

/-- RBR (41_bit R404). -/
def execRbr (n : BitNo) (rb : Reg) (s : State) : Out := .next (s.setReg rb (withoutBit (s.reg rb) n))

/-- RB (41_bit R405). -/
def execRb (n : Fin 16) (rx : Reg) (addr : Word) (s : State) : Out :=
  updateWord (daLong rx addr s) (fun t => withoutBit t n) s

/-- RBI (41_bit R406). -/
def execRbi (n : Fin 16) (rx : Reg) (addr : Word) (s : State) : Out :=
  withPointer rx addr s fun a s => updateWord a (fun t => withoutBit t n) s

/-- TBR (41_bit R407). -/
def execTbr (n : BitNo) (rb : Reg) (s : State) : Out := .next (setCS (csBit (s.reg rb) n) s)

/-- TB (41_bit R408). -/
def execTb (n : Fin 16) (rx : Reg) (addr : Word) (s : State) : Out := testWord (daLong rx addr s) n s

/-- TBI (41_bit R409). -/
def execTbi (n : Fin 16) (rx : Reg) (addr : Word) (s : State) : Out :=
  withPointer rx addr s fun a s => testWord a n s

/-- TSB: CS from the old value, written back only when the bit was zero; indivisible, no turn of the environment comes
between the read and the write (41_bit R410, 20_memory R228). CS is written before the store, so a store that abandons the
instruction leaves it written. -/
def execTsb (n : Fin 16) (rx : Reg) (addr : Word) (s : State) : Out :=
  withWord (daLong rx addr s) s fun t s =>
    let s' := setCS (csBit t n) s
    if bitAt t n then .next s' else andThen (storeNow (daLong rx addr s) (withBit t n) s') .next

/-- SVBR: the bit number is read before the register is changed (41_bit R411). -/
def execSvbr (ra rb : Reg) (s : State) : Out := .next (s.setReg rb (withBit (s.reg rb) (bitNumberOf (s.reg ra))))

/-- RVBR (41_bit R412). -/
def execRvbr (ra rb : Reg) (s : State) : Out := .next (s.setReg rb (withoutBit (s.reg rb) (bitNumberOf (s.reg ra))))

/-- TVBR (41_bit R413). -/
def execTvbr (ra rb : Reg) (s : State) : Out := .next (setCS (csBit (s.reg rb) (bitNumberOf (s.reg ra))) s)

end Sys2Proof.Machine
end

