-- ==== Sys2Proof/Machine/FloatOps.lean ====
section
/-! DEFINITION. Floating point formats, the exact algorithms on integers, and the delivery of results (48_float R640 to R643,
R650, R657, R658, R665, R672 to R676). -/

namespace Sys2Proof.Machine

/-- The mantissa and the exponent of an operand as integers. -/
structure Unpacked where
  m : Int
  e : Int
deriving DecidableEq, Repr

/-- `FUnpack` (48_float R640): mantissa bits 0 to 23, exponent bits 24 to 31. -/
def unpack32 (x : DWord) : Unpacked := { m := (x.extractLsb' 8 24).toInt, e := (x.extractLsb' 0 8).toInt }

/-- `EUnpack` (48_float R640): mantissa bits 0 to 23 and 32 to 47, exponent bits 24 to 31. -/
def unpack48 (x : TWord) : Unpacked :=
  { m := (x.extractLsb' 24 24 ++ x.extractLsb' 0 16).toInt, e := (x.extractLsb' 16 8).toInt }

/-- `FPack`. -/
def pack32 (m e : Int) : DWord := BitVec.ofInt 24 m ++ BitVec.ofInt 8 e

/-- `EPack`. -/
def pack48 (m e : Int) : TWord :=
  ((BitVec.ofInt 40 m).extractLsb' 16 24 ++ BitVec.ofInt 8 e) ++ (BitVec.ofInt 40 m).extractLsb' 0 16

/-- `Normalized_W` (48_float R640). -/
def normalizedMantissa (w : Nat) (m : Int) : Bool :=
  (decide ((2 : Int) ^ (w - 2) ≤ m) && decide (m < (2 : Int) ^ (w - 1))) ||
    (decide (-(2 : Int) ^ (w - 1) ≤ m) && decide (m < -(2 : Int) ^ (w - 2)))

/-- `ValidOperand_W`: floating point zero or normalized (48_float R640, R641). -/
def validOperand (w : Nat) (x : Unpacked) : Bool :=
  (decide (x.m = 0) && decide (x.e = 0)) || normalizedMantissa w x.m

/-- The four outcomes of an algorithm (48_float R642). -/
inductive FloatResult where
  | ok (m e : Int)
  | zero
  | overflow (negative : Bool)
  | underflow
deriving DecidableEq, Repr

/-- The largest and the smallest mantissa (48_float R642). -/
def limitMantissa (w : Nat) (negative : Bool) : Int :=
  if negative then -(2 : Int) ^ (w - 1) else (2 : Int) ^ (w - 1) - 1

/-- The mantissa delivered (48_float R642). -/
def FloatResult.mantissa (w : Nat) : FloatResult → Int
  | .ok m _ => m
  | .zero => 0
  | .overflow negative => limitMantissa w negative
  | .underflow => 0

/-- The exponent delivered (48_float R642). -/
def FloatResult.exponent : FloatResult → Int
  | .ok _ e => e
  | .zero => 0
  | .overflow _ => 127
  | .underflow => 0

/-- The interrupt raised (48_float R642). -/
def FloatResult.raise (r : FloatResult) (s : State) : State :=
  match r with
  | .overflow _ => raiseInterrupt floatOverflow s
  | .underflow => raiseInterrupt floatUnderflow s
  | _ => s

/-- Deliver a result to RA, RA+1; CS from the delivered pattern (48_float R642, decision D28). -/
def deliver32 (ra : Reg) (r : FloatResult) (s : State) : State :=
  let v := pack32 (r.mantissa 24) r.exponent
  r.raise (setCS (csSign v) (s.setPair ra v))

/-- Deliver a result to RA, RA+1, RA+2. -/
def deliver48 (ra : Reg) (r : FloatResult) (s : State) : State :=
  let v := pack48 (r.mantissa 40) r.exponent
  r.raise (setCS (csSign v) (s.setTriple ra v))

/-- `Norm`: shift left and count the exponent down until normalized (48_float R642); `w` shifts always suffice for a
mantissa of width `w` that is not zero. -/
def normalize (w : Nat) : Nat → Int → Int → Int × Int
  | 0, m, e => (m, e)
  | k + 1, m, e =>
    if m = 0 ∨ normalizedMantissa w m = true then (m, e) else normalize w k (2 * m) (e - 1)

/-- The end of an algorithm that normalizes: floating point zero, underflow or the result. -/
def finishNormal (w : Nat) (m e : Int) : FloatResult :=
  let (m', e') := normalize w w m e
  if m = 0 then .zero else if e' < -128 then .underflow else .ok m' e'

/-- `FAddSub` (48_float R643, decision D29): the mantissa with the smaller exponent is shifted right without guard bits. -/
def floatAddSub (w : Nat) (a o : Unpacked) (sub : Bool) : FloatResult :=
  let n := a.e - o.e
  let om := if 0 < n ∧ a.m ≠ 0 then Int.fdiv o.m ((2 : Int) ^ n.toNat) else o.m
  let am := if n < 0 ∧ o.m ≠ 0 then Int.fdiv a.m ((2 : Int) ^ (-n).toNat) else a.m
  let e := if a.m = 0 then o.e else if n < 0 ∧ o.m ≠ 0 then o.e else a.e
  let sum := if sub then am - om else am + om
  let ovm := outsideSigned w sum
  let m := if ovm then Int.fdiv sum 2 else sum
  let e' := if ovm then e + 1 else e
  if 127 < e' then .overflow (decide (m < 0)) else finishNormal w m e'

/-- Normalize the double-length product (48_float R658). -/
def normalizeProduct (w : Nat) : Nat → Int → Int → Int × Int
  | 0, p, n => (p, n)
  | k + 1, p, n =>
    if -(2 : Int) ^ (2 * w - 3) ≤ p ∧ p < (2 : Int) ^ (2 * w - 3) then normalizeProduct w k (2 * p) (n - 1) else (p, n)

/-- `FMul` (48_float R658). -/
def floatMul (w : Nat) (a o : Unpacked) : FloatResult :=
  let n := a.e + o.e
  if 127 < n then .overflow (decide (a.m < 0) != decide (o.m < 0))
  else if n < -128 then .underflow
  else
    let exact := a.m * o.m
    let one := decide (exact = (2 : Int) ^ (2 * w - 2))
    let p := if one then (2 : Int) ^ (2 * w - 3) else exact
    let n' := if one then n + 1 else n
    if 127 < n' then .overflow (decide (p < 0))
    else if p = 0 then .zero
    else
      let (p', n'') := normalizeProduct w (2 * w) p n'
      if n'' < -128 then .underflow else .ok (Int.fdiv p' ((2 : Int) ^ (w - 1))) n''

/-- `FDiv` (48_float R665, decision D30): the exact quotient of the mantissas is kept as a fraction num / den with den
positive; halving doubles den. -/
def floatDiv (w : Nat) (a o : Unpacked) : FloatResult :=
  let n := if a.m = 0 then 0 else a.e - o.e
  if 127 < n ∨ o.m = 0 then .overflow (decide (a.m < 0) != decide (o.m < 0))
  else if n < -128 then .underflow
  else
    let num := if o.m < 0 then -a.m else a.m
    let mag : Int := o.m.natAbs
    let big := decide (mag ≤ (num.natAbs : Int))
    let den := if big then 2 * mag else mag
    let n1 := if big then n + 1 else n
    if 127 < n1 then .overflow (decide (num < 0))
    else if num = 0 then .zero
    else
      let half := decide (2 * num = -den)
      let n2 := if half then n1 - 1 else n1
      if n2 < -128 then .underflow
      else if half then .ok (-(2 : Int) ^ (w - 1)) n2
      else .ok (Int.fdiv (num * (2 : Int) ^ (w - 1)) den) n2

/-- `FCmp`: the two values times 2^(W-1+128), both integers (48_float R676). -/
def floatCompare (a o : Unpacked) : BitVec 4 :=
  csCompare (a.m * (2 : Int) ^ (a.e + 128).toNat) (o.m * (2 : Int) ^ (o.e + 128).toNat)

/-- `m * 2^(e - f)` truncated toward zero (48_float R672, R674). -/
def integerPart (m e : Int) (f : Nat) : Int :=
  if (f : Int) ≤ e then m * (2 : Int) ^ (e - f).toNat else Int.tdiv m ((2 : Int) ^ ((f : Int) - e).toNat)

/-- An integer as a normalized floating point number: it fills the top of the mantissa, exponent `e0` (48_float R673,
R675). -/
def integerToFloat (w : Nat) (d e0 : Int) : FloatResult := finishNormal w (d * 256) e0

/-- Absolute value of a floating point number whose mantissa is negative (48_float R650). -/
def floatAbs (x : Unpacked) : FloatResult :=
  if x.m = -(2 : Int) ^ 23 then (if 127 < x.e + 1 then .overflow false else .ok ((2 : Int) ^ 22) (x.e + 1))
  else .ok (if x.m < 0 then -x.m else x.m) x.e

/-- Negation (48_float R657). -/
def floatNeg (x : Unpacked) : FloatResult :=
  if x.m = -(2 : Int) ^ 23 ∧ x.e = 127 then .overflow false
  else if x.m = (2 : Int) ^ 22 ∧ x.e = -128 then .underflow
  else if x.m = -(2 : Int) ^ 23 then .ok ((2 : Int) ^ 22) (x.e + 1)
  else if x.m = (2 : Int) ^ 22 then .ok (-(2 : Int) ^ 23) (x.e - 1)
  else if x.m = 0 then .zero
  else .ok (-x.m) x.e

/-! ## Operands that are neither normalized nor zero (48_float R641, decision D27, log 8): free values -/

/-- PI bits 3, 4 and 6. -/
def arithmeticBits : Word := 0x1A00#16

/-- CS takes a free value. -/
def freeCS (s : State) : State :=
  let (v, s') := drawWord s
  setCS (v.extractLsb' 0 4) s'

/-- PI bits 3, 4 and 6 take free values. -/
def freePI (s : State) : State :=
  let (v, s') := drawWord s
  { s' with pi := (s'.pi &&& ~~~arithmeticBits) ||| (v &&& arithmeticBits) }

/-- A register takes a free value. -/
def freeReg (r : Reg) (s : State) : State :=
  let (v, s') := drawWord s
  s'.setReg r v

/-- RA, CS, PI take free values. -/
def freeSingle (ra : Reg) (s : State) : State := freePI (freeCS (freeReg ra s))

/-- RA, RA+1, CS, PI take free values. -/
def freePair (ra : Reg) (s : State) : State := freePI (freeCS (freeReg (ra + 1) (freeReg ra s)))

/-- RA, RA+1, RA+2, CS, PI take free values. -/
def freeTriple (ra : Reg) (s : State) : State :=
  freePI (freeCS (freeReg (ra + 2) (freeReg (ra + 1) (freeReg ra s))))

/-- A floating point operation on RA, RA+1 and a 32-bit operand. -/
def floatOp32 (f : Unpacked → Unpacked → FloatResult) (ra : Reg) (d : DWord) (s : State) : State :=
  let a := unpack32 (s.pair ra)
  let o := unpack32 d
  if validOperand 24 a && validOperand 24 o then deliver32 ra (f a o) s else freePair ra s

/-- A floating point operation on RA, RA+1, RA+2 and a 48-bit operand. -/
def floatOp48 (f : Unpacked → Unpacked → FloatResult) (ra : Reg) (d : TWord) (s : State) : State :=
  let a := unpack48 (s.triple ra)
  let o := unpack48 d
  if validOperand 40 a && validOperand 40 o then deliver48 ra (f a o) s else freeTriple ra s

/-- A comparison of RA, RA+1 with a 32-bit operand. -/
def floatCompare32 (ra : Reg) (d : DWord) (s : State) : State :=
  let a := unpack32 (s.pair ra)
  let o := unpack32 d
  if validOperand 24 a && validOperand 24 o then setCS (floatCompare a o) s else freeCS s

/-- A comparison of RA, RA+1, RA+2 with a 48-bit operand. -/
def floatCompare48 (ra : Reg) (d : TWord) (s : State) : State :=
  let a := unpack48 (s.triple ra)
  let o := unpack48 d
  if validOperand 40 a && validOperand 40 o then setCS (floatCompare a o) s else freeCS s

end Sys2Proof.Machine
end

