-- ==== Sys2Proof/Machine/Float.lean ====
section
/-! DEFINITION. Floating point and extended floating point instructions (48_float). -/

namespace Sys2Proof.Machine

/-- FAR (48_float R644). -/
def execFar (ra rb : Reg) (s : State) : Out := .next (floatOp32 (fun a o => floatAddSub 24 a o false) ra (s.pair rb) s)

/-- FAB (48_float R645). -/
def execFab (br : Reg) (dspl : Byte) (s : State) : Out :=
  withDouble (daBase br dspl s) s fun d s => .next (floatOp32 (fun a o => floatAddSub 24 a o false) 0 d s)

/-- FABX (48_float R646). -/
def execFabx (br rx : Reg) (s : State) : Out :=
  withDouble (daBaseIndexed br rx s) s fun d s => .next (floatOp32 (fun a o => floatAddSub 24 a o false) 0 d s)

/-- FA (48_float R647). -/
def execFa (ra rx : Reg) (addr : Word) (s : State) : Out :=
  withDouble (daLong rx addr s) s fun d s => .next (floatOp32 (fun a o => floatAddSub 24 a o false) ra d s)

/-- EFAR (48_float R648). -/
def execEfar (ra rb : Reg) (s : State) : Out :=
  .next (floatOp48 (fun a o => floatAddSub 40 a o false) ra (s.triple rb) s)

/-- EFA (48_float R649). -/
def execEfa (ra rx : Reg) (addr : Word) (s : State) : Out :=
  withTriple (daLong rx addr s) s fun d s => .next (floatOp48 (fun a o => floatAddSub 40 a o false) ra d s)

/-- FABS (48_float R650). -/
def execFabs (ra rb : Reg) (s : State) : Out :=
  .next (if validOperand 24 (unpack32 (s.pair rb)) then deliver32 ra (floatAbs (unpack32 (s.pair rb))) s
    else freePair ra s)

/-- FSR (48_float R651). -/
def execFsr (ra rb : Reg) (s : State) : Out := .next (floatOp32 (fun a o => floatAddSub 24 a o true) ra (s.pair rb) s)

/-- FSB (48_float R652). -/
def execFsb (br : Reg) (dspl : Byte) (s : State) : Out :=
  withDouble (daBase br dspl s) s fun d s => .next (floatOp32 (fun a o => floatAddSub 24 a o true) 0 d s)

/-- FSBX (48_float R653). -/
def execFsbx (br rx : Reg) (s : State) : Out :=
  withDouble (daBaseIndexed br rx s) s fun d s => .next (floatOp32 (fun a o => floatAddSub 24 a o true) 0 d s)

/-- FS (48_float R654). -/
def execFs (ra rx : Reg) (addr : Word) (s : State) : Out :=
  withDouble (daLong rx addr s) s fun d s => .next (floatOp32 (fun a o => floatAddSub 24 a o true) ra d s)

/-- EFSR (48_float R655). -/
def execEfsr (ra rb : Reg) (s : State) : Out :=
  .next (floatOp48 (fun a o => floatAddSub 40 a o true) ra (s.triple rb) s)

/-- EFS (48_float R656). -/
def execEfs (ra rx : Reg) (addr : Word) (s : State) : Out :=
  withTriple (daLong rx addr s) s fun d s => .next (floatOp48 (fun a o => floatAddSub 40 a o true) ra d s)

/-- FNEG (48_float R657). -/
def execFneg (ra rb : Reg) (s : State) : Out :=
  .next (if validOperand 24 (unpack32 (s.pair rb)) then deliver32 ra (floatNeg (unpack32 (s.pair rb))) s
    else freePair ra s)

/-- FMR (48_float R659). -/
def execFmr (ra rb : Reg) (s : State) : Out := .next (floatOp32 (floatMul 24) ra (s.pair rb) s)

/-- FMB (48_float R660). -/
def execFmb (br : Reg) (dspl : Byte) (s : State) : Out :=
  withDouble (daBase br dspl s) s fun d s => .next (floatOp32 (floatMul 24) 0 d s)

/-- FMBX (48_float R661). -/
def execFmbx (br rx : Reg) (s : State) : Out :=
  withDouble (daBaseIndexed br rx s) s fun d s => .next (floatOp32 (floatMul 24) 0 d s)

/-- FM (48_float R662). -/
def execFm (ra rx : Reg) (addr : Word) (s : State) : Out :=
  withDouble (daLong rx addr s) s fun d s => .next (floatOp32 (floatMul 24) ra d s)

/-- EFMR (48_float R663). -/
def execEfmr (ra rb : Reg) (s : State) : Out := .next (floatOp48 (floatMul 40) ra (s.triple rb) s)

/-- EFM (48_float R664). -/
def execEfm (ra rx : Reg) (addr : Word) (s : State) : Out :=
  withTriple (daLong rx addr s) s fun d s => .next (floatOp48 (floatMul 40) ra d s)

/-- FDR (48_float R666). -/
def execFdr (ra rb : Reg) (s : State) : Out := .next (floatOp32 (floatDiv 24) ra (s.pair rb) s)

/-- FDB (48_float R667). -/
def execFdb (br : Reg) (dspl : Byte) (s : State) : Out :=
  withDouble (daBase br dspl s) s fun d s => .next (floatOp32 (floatDiv 24) 0 d s)

/-- FDBX (48_float R668). -/
def execFdbx (br rx : Reg) (s : State) : Out :=
  withDouble (daBaseIndexed br rx s) s fun d s => .next (floatOp32 (floatDiv 24) 0 d s)

/-- FD (48_float R669). -/
def execFd (ra rx : Reg) (addr : Word) (s : State) : Out :=
  withDouble (daLong rx addr s) s fun d s => .next (floatOp32 (floatDiv 24) ra d s)

/-- EFDR (48_float R670). -/
def execEfdr (ra rb : Reg) (s : State) : Out := .next (floatOp48 (floatDiv 40) ra (s.triple rb) s)

/-- EFD (48_float R671). -/
def execEfd (ra rx : Reg) (addr : Word) (s : State) : Out :=
  withTriple (daLong rx addr s) s fun d s => .next (floatOp48 (floatDiv 40) ra d s)

/-- FIX: an exponent beyond 15 raises fixed point overflow and stores nothing (48_float R672). -/
def execFix (ra rb : Reg) (s : State) : Out :=
  let x := unpack32 (s.pair rb)
  if validOperand 24 x then
    if 15 < x.e then .next (raiseInterrupt fixedOverflow s)
    else
      let r := BitVec.ofInt 16 (integerPart x.m x.e 23)
      .next (setCS (csSign r) (s.setReg ra r))
  else .next (freeSingle ra s)

/-- FLT (48_float R673). -/
def execFlt (ra rb : Reg) (s : State) : Out := .next (deliver32 ra (integerToFloat 24 (s.reg rb).toInt 15) s)

/-- EFIX: an exponent beyond 31 raises fixed point overflow and stores nothing (48_float R674). -/
def execEfix (ra rb : Reg) (s : State) : Out :=
  let x := unpack48 (s.triple rb)
  if validOperand 40 x then
    if 31 < x.e then .next (raiseInterrupt fixedOverflow s)
    else
      let r := BitVec.ofInt 32 (integerPart x.m x.e 39)
      .next (setCS (csSign r) (s.setPair ra r))
  else .next (freePair ra s)

/-- EFLT (48_float R675). -/
def execEflt (ra rb : Reg) (s : State) : Out := .next (deliver48 ra (integerToFloat 40 (s.pair rb).toInt 31) s)

/-- FCR (48_float R677). -/
def execFcr (ra rb : Reg) (s : State) : Out := .next (floatCompare32 ra (s.pair rb) s)

/-- FCB (48_float R678). -/
def execFcb (br : Reg) (dspl : Byte) (s : State) : Out :=
  withDouble (daBase br dspl s) s fun d s => .next (floatCompare32 0 d s)

/-- FCBX (48_float R679). -/
def execFcbx (br rx : Reg) (s : State) : Out :=
  withDouble (daBaseIndexed br rx s) s fun d s => .next (floatCompare32 0 d s)

/-- FC (48_float R680). -/
def execFc (ra rx : Reg) (addr : Word) (s : State) : Out :=
  withDouble (daLong rx addr s) s fun d s => .next (floatCompare32 ra d s)

/-- EFCR (48_float R681). -/
def execEfcr (ra rb : Reg) (s : State) : Out := .next (floatCompare48 ra (s.triple rb) s)

/-- EFC (48_float R682). -/
def execEfc (ra rx : Reg) (addr : Word) (s : State) : Out :=
  withTriple (daLong rx addr s) s fun d s => .next (floatCompare48 ra d s)

end Sys2Proof.Machine
end

