-- ==== Sys2Proof/Syntax.lean ====
section
/-! DEFINITION. The instructions: one constructor per row of spec/opcode_table.json, with the operands of the standard's
assembly notation (30_encoding R291). Where an encoding holds a number less one (an immediate short operand, a shift count,
the amount of INCM and DECM) or a base register less twelve, the constructor holds the number or the register itself;
WellFormed says which values an encoding can hold. -/

namespace Sys2Proof

/-- An instruction. `ra`, `rb` general registers, `rx` the index register (0: no indexing), `br` the base register
(R12 to R15), `addr` the address, immediate or command field, `d` the branch displacement. -/
inductive Instr where
  /-- XIO: 40_io R300, Long format, mode IM/IMX. -/
  | xio (ra rx : Reg) (addr : Word)
  /-- VIO: 40_io R380, Long format, mode D/DX. -/
  | vio (ra rx : Reg) (addr : Word)
  /-- SB: 41_bit R402, Long format, mode D/DX. -/
  | sb (n : Fin 16) (rx : Reg) (addr : Word)
  /-- SBR: 41_bit R401, Register-to-Register format, mode R (bit number). -/
  | sbr (n : BitNo) (rb : Reg)
  /-- SBI: 41_bit R403, Long format, mode I/IX. -/
  | sbi (n : Fin 16) (rx : Reg) (addr : Word)
  /-- RB: 41_bit R405, Long format, mode D/DX. -/
  | rb (n : Fin 16) (rx : Reg) (addr : Word)
  /-- RBR: 41_bit R404, Register-to-Register format, mode R (bit number). -/
  | rbr (n : BitNo) (rb : Reg)
  /-- RBI: 41_bit R406, Long format, mode I/IX. -/
  | rbi (n : Fin 16) (rx : Reg) (addr : Word)
  /-- TB: 41_bit R408, Long format, mode D/DX. -/
  | tb (n : Fin 16) (rx : Reg) (addr : Word)
  /-- TBR: 41_bit R407, Register-to-Register format, mode R (bit number). -/
  | tbr (n : BitNo) (rb : Reg)
  /-- TBI: 41_bit R409, Long format, mode I/IX. -/
  | tbi (n : Fin 16) (rx : Reg) (addr : Word)
  /-- TSB: 41_bit R410, Long format, mode D/DX. -/
  | tsb (n : Fin 16) (rx : Reg) (addr : Word)
  /-- SVBR: 41_bit R411, Register-to-Register format, mode R. -/
  | svbr (ra rb : Reg)
  /-- RVBR: 41_bit R412, Register-to-Register format, mode R. -/
  | rvbr (ra rb : Reg)
  /-- TVBR: 41_bit R413, Register-to-Register format, mode R. -/
  | tvbr (ra rb : Reg)
  /-- SLL: 42_shift R421, Register-to-Register format, mode R (shift count). -/
  | sll (rb : Reg) (n : Nat)
  /-- SRL: 42_shift R422, Register-to-Register format, mode R (shift count). -/
  | srl (rb : Reg) (n : Nat)
  /-- SRA: 42_shift R423, Register-to-Register format, mode R (shift count). -/
  | sra (rb : Reg) (n : Nat)
  /-- SLC: 42_shift R424, Register-to-Register format, mode R (shift count). -/
  | slc (rb : Reg) (n : Nat)
  /-- DSLL: 42_shift R425, Register-to-Register format, mode R (shift count). -/
  | dsll (rb : Reg) (n : Nat)
  /-- DSRL: 42_shift R426, Register-to-Register format, mode R (shift count). -/
  | dsrl (rb : Reg) (n : Nat)
  /-- DSRA: 42_shift R427, Register-to-Register format, mode R (shift count). -/
  | dsra (rb : Reg) (n : Nat)
  /-- DSLC: 42_shift R428, Register-to-Register format, mode R (shift count). -/
  | dslc (rb : Reg) (n : Nat)
  /-- SLR: 42_shift R430, Register-to-Register format, mode R. -/
  | slr (ra rb : Reg)
  /-- SAR: 42_shift R431, Register-to-Register format, mode R. -/
  | sar (ra rb : Reg)
  /-- SCR: 42_shift R432, Register-to-Register format, mode R. -/
  | scr (ra rb : Reg)
  /-- DSLR: 42_shift R433, Register-to-Register format, mode R. -/
  | dslr (ra rb : Reg)
  /-- DSAR: 42_shift R434, Register-to-Register format, mode R. -/
  | dsar (ra rb : Reg)
  /-- DSCR: 42_shift R435, Register-to-Register format, mode R. -/
  | dscr (ra rb : Reg)
  /-- JC: 43_jump_branch R451, Long format, mode D/DX. -/
  | jc (c : BitVec 4) (rx : Reg) (addr : Word)
  /-- JCI: 43_jump_branch R452, Long format, mode I/IX. -/
  | jci (c : BitVec 4) (rx : Reg) (addr : Word)
  /-- JS: 43_jump_branch R453, Long format, mode D/DX. -/
  | js (ra rx : Reg) (addr : Word)
  /-- SOJ: 43_jump_branch R454, Long format, mode D/DX. -/
  | soj (ra rx : Reg) (addr : Word)
  /-- BR: 43_jump_branch R456, IC Relative format, mode ICR. -/
  | br (d : Byte)
  /-- BEZ: 43_jump_branch R457, IC Relative format, mode ICR. -/
  | bez (d : Byte)
  /-- BLT: 43_jump_branch R458, IC Relative format, mode ICR. -/
  | blt (d : Byte)
  /-- BLE: 43_jump_branch R459, IC Relative format, mode ICR. -/
  | ble (d : Byte)
  /-- BGT: 43_jump_branch R460, IC Relative format, mode ICR. -/
  | bgt (d : Byte)
  /-- BNZ: 43_jump_branch R461, IC Relative format, mode ICR. -/
  | bnz (d : Byte)
  /-- BGE: 43_jump_branch R462, IC Relative format, mode ICR. -/
  | bge (d : Byte)
  /-- BEX: 43_jump_branch R463, Special format, mode S. -/
  | bex (n : Fin 16)
  /-- LSTI: 43_jump_branch R465, Long format, mode I/IX. -/
  | lsti (rx : Reg) (addr : Word)
  /-- LST: 43_jump_branch R464, Long format, mode D/DX. -/
  | lst (rx : Reg) (addr : Word)
  /-- SJS: 43_jump_branch R466, Long format, mode D/DX. -/
  | sjs (ra rx : Reg) (addr : Word)
  /-- URS: 43_jump_branch R467, Special format, mode S. -/
  | urs (ra : Reg)
  /-- L: 44_load R486, Long format, mode D/DX. -/
  | l (ra rx : Reg) (addr : Word)
  /-- LR: 44_load R481, Register-to-Register format, mode R. -/
  | lr (ra rb : Reg)
  /-- LISP: 44_load R484, Register-to-Register format, mode ISP. -/
  | lisp (ra : Reg) (n : Nat)
  /-- LISN: 44_load R485, Register-to-Register format, mode ISN. -/
  | lisn (ra : Reg) (n : Nat)
  /-- LI: 44_load R488, Long format, mode I/IX. -/
  | li (ra rx : Reg) (addr : Word)
  /-- LIM: 44_load R487, Long format, mode IM/IMX. -/
  | lim (ra rx : Reg) (addr : Word)
  /-- DL: 44_load R492, Long format, mode D/DX. -/
  | dl (ra rx : Reg) (addr : Word)
  /-- DLR: 44_load R489, Register-to-Register format, mode R. -/
  | dlr (ra rb : Reg)
  /-- DLI: 44_load R493, Long format, mode I/IX. -/
  | dli (ra rx : Reg) (addr : Word)
  /-- LM: 44_load R494, Long format, mode D/DX. -/
  | lm (n : Fin 16) (rx : Reg) (addr : Word)
  /-- EFL: 44_load R495, Long format, mode D/DX. -/
  | efl (ra rx : Reg) (addr : Word)
  /-- LUB: 44_load R496, Long format, mode D/DX. -/
  | lub (ra rx : Reg) (addr : Word)
  /-- LLB: 44_load R498, Long format, mode D/DX. -/
  | llb (ra rx : Reg) (addr : Word)
  /-- LUBI: 44_load R497, Long format, mode I/IX. -/
  | lubi (ra rx : Reg) (addr : Word)
  /-- LLBI: 44_load R499, Long format, mode I/IX. -/
  | llbi (ra rx : Reg) (addr : Word)
  /-- POPM: 44_load R500, Special format, mode S. -/
  | popm (ra rb : Reg)
  /-- LB: 44_load R482, Base Relative format, mode B. -/
  | lb (br : Reg) (dspl : Byte)
  /-- DLB: 44_load R490, Base Relative format, mode B. -/
  | dlb (br : Reg) (dspl : Byte)
  /-- LBX: 44_load R483, Base Relative Indexed format, mode BX. -/
  | lbx (br rx : Reg)
  /-- DLBX: 44_load R491, Base Relative Indexed format, mode BX. -/
  | dlbx (br rx : Reg)
  /-- ST: 45_store R523, Long format, mode D/DX. -/
  | st (ra rx : Reg) (addr : Word)
  /-- STC: 45_store R525, Long format, mode D/DX. -/
  | stc (n : Fin 16) (rx : Reg) (addr : Word)
  /-- STCI: 45_store R526, Long format, mode I/IX. -/
  | stci (n : Fin 16) (rx : Reg) (addr : Word)
  /-- MOV: 45_store R527, Special format, mode S. -/
  | mov (ra rb : Reg)
  /-- STI: 45_store R524, Long format, mode I/IX. -/
  | sti (ra rx : Reg) (addr : Word)
  /-- DST: 45_store R530, Long format, mode D/DX. -/
  | dst (ra rx : Reg) (addr : Word)
  /-- SRM: 45_store R532, Long format, mode D/DX. -/
  | srm (ra rx : Reg) (addr : Word)
  /-- DSTI: 45_store R531, Long format, mode I/IX. -/
  | dsti (ra rx : Reg) (addr : Word)
  /-- STM: 45_store R533, Long format, mode D/DX. -/
  | stm (n : Fin 16) (rx : Reg) (addr : Word)
  /-- EFST: 45_store R534, Long format, mode D/DX. -/
  | efst (ra rx : Reg) (addr : Word)
  /-- STUB: 45_store R535, Long format, mode D/DX. -/
  | stub (ra rx : Reg) (addr : Word)
  /-- STLB: 45_store R537, Long format, mode D/DX. -/
  | stlb (ra rx : Reg) (addr : Word)
  /-- SUBI: 45_store R536, Long format, mode I/IX. -/
  | subi (ra rx : Reg) (addr : Word)
  /-- SLBI: 45_store R538, Long format, mode I/IX. -/
  | slbi (ra rx : Reg) (addr : Word)
  /-- PSHM: 45_store R540, Special format, mode S. -/
  | pshm (ra rb : Reg)
  /-- STB: 45_store R521, Base Relative format, mode B. -/
  | stb (br : Reg) (dspl : Byte)
  /-- DSTB: 45_store R528, Base Relative format, mode B. -/
  | dstb (br : Reg) (dspl : Byte)
  /-- STBX: 45_store R522, Base Relative Indexed format, mode BX. -/
  | stbx (br rx : Reg)
  /-- DSTX: 45_store R529, Base Relative Indexed format, mode BX. -/
  | dstx (br rx : Reg)
  /-- A: 46_int_addsub R565, Long format, mode D/DX. -/
  | a (ra rx : Reg) (addr : Word)
  /-- AR: 46_int_addsub R561, Register-to-Register format, mode R. -/
  | ar (ra rb : Reg)
  /-- AISP: 46_int_addsub R564, Register-to-Register format, mode ISP. -/
  | aisp (ra : Reg) (n : Nat)
  /-- INCM: 46_int_addsub R567, Long format, mode D/DX. -/
  | incm (n : Nat) (rx : Reg) (addr : Word)
  /-- ABS: 46_int_addsub R568, Register-to-Register format, mode R. -/
  | abs (ra rb : Reg)
  /-- DABS: 46_int_addsub R569, Register-to-Register format, mode R. -/
  | dabs (ra rb : Reg)
  /-- DA: 46_int_addsub R571, Long format, mode D/DX. -/
  | da (ra rx : Reg) (addr : Word)
  /-- DAR: 46_int_addsub R570, Register-to-Register format, mode R. -/
  | dar (ra rb : Reg)
  /-- AB: 46_int_addsub R562, Base Relative format, mode B. -/
  | ab (br : Reg) (dspl : Byte)
  /-- ABX: 46_int_addsub R563, Base Relative Indexed format, mode BX. -/
  | abx (br rx : Reg)
  /-- AIM: 46_int_addsub R566, Immediate Opcode Extension format, mode IM. -/
  | aim (ra : Reg) (data : Word)
  /-- S: 46_int_addsub R576, Long format, mode D/DX. -/
  | s (ra rx : Reg) (addr : Word)
  /-- SR: 46_int_addsub R572, Register-to-Register format, mode R. -/
  | sr (ra rb : Reg)
  /-- SISP: 46_int_addsub R575, Register-to-Register format, mode ISP. -/
  | sisp (ra : Reg) (n : Nat)
  /-- DECM: 46_int_addsub R578, Long format, mode D/DX. -/
  | decm (n : Nat) (rx : Reg) (addr : Word)
  /-- NEG: 46_int_addsub R579, Register-to-Register format, mode R. -/
  | neg (ra rb : Reg)
  /-- DNEG: 46_int_addsub R580, Register-to-Register format, mode R. -/
  | dneg (ra rb : Reg)
  /-- DS: 46_int_addsub R582, Long format, mode D/DX. -/
  | ds (ra rx : Reg) (addr : Word)
  /-- DSR: 46_int_addsub R581, Register-to-Register format, mode R. -/
  | dsr (ra rb : Reg)
  /-- SBB: 46_int_addsub R573, Base Relative format, mode B. -/
  | sbb (br : Reg) (dspl : Byte)
  /-- SBBX: 46_int_addsub R574, Base Relative Indexed format, mode BX. -/
  | sbbx (br rx : Reg)
  /-- SIM: 46_int_addsub R577, Immediate Opcode Extension format, mode IM. -/
  | sim (ra : Reg) (data : Word)
  /-- MS: 47_int_muldiv R605, Long format, mode D/DX. -/
  | ms (ra rx : Reg) (addr : Word)
  /-- MSR: 47_int_muldiv R602, Register-to-Register format, mode R. -/
  | msr (ra rb : Reg)
  /-- MISP: 47_int_muldiv R603, Register-to-Register format, mode ISP. -/
  | misp (ra : Reg) (n : Nat)
  /-- MISN: 47_int_muldiv R604, Register-to-Register format, mode ISN. -/
  | misn (ra : Reg) (n : Nat)
  /-- M: 47_int_muldiv R610, Long format, mode D/DX. -/
  | m (ra rx : Reg) (addr : Word)
  /-- MR: 47_int_muldiv R607, Register-to-Register format, mode R. -/
  | mr (ra rb : Reg)
  /-- DM: 47_int_muldiv R613, Long format, mode D/DX. -/
  | dm (ra rx : Reg) (addr : Word)
  /-- DMR: 47_int_muldiv R612, Register-to-Register format, mode R. -/
  | dmr (ra rb : Reg)
  /-- MB: 47_int_muldiv R608, Base Relative format, mode B. -/
  | mb (br : Reg) (dspl : Byte)
  /-- MBX: 47_int_muldiv R609, Base Relative Indexed format, mode BX. -/
  | mbx (br rx : Reg)
  /-- MIM: 47_int_muldiv R611, Immediate Opcode Extension format, mode IM. -/
  | mim (ra : Reg) (data : Word)
  /-- MSIM: 47_int_muldiv R606, Immediate Opcode Extension format, mode IM. -/
  | msim (ra : Reg) (data : Word)
  /-- DV: 47_int_muldiv R617, Long format, mode D/DX. -/
  | dv (ra rx : Reg) (addr : Word)
  /-- DVR: 47_int_muldiv R614, Register-to-Register format, mode R. -/
  | dvr (ra rb : Reg)
  /-- DISP: 47_int_muldiv R615, Register-to-Register format, mode ISP. -/
  | disp (ra : Reg) (n : Nat)
  /-- DISN: 47_int_muldiv R616, Register-to-Register format, mode ISN. -/
  | disn (ra : Reg) (n : Nat)
  /-- D: 47_int_muldiv R622, Long format, mode D/DX. -/
  | d (ra rx : Reg) (addr : Word)
  /-- DR: 47_int_muldiv R619, Register-to-Register format, mode R. -/
  | dr (ra rb : Reg)
  /-- DD: 47_int_muldiv R625, Long format, mode D/DX. -/
  | dd (ra rx : Reg) (addr : Word)
  /-- DDR: 47_int_muldiv R624, Register-to-Register format, mode R. -/
  | ddr (ra rb : Reg)
  /-- DB: 47_int_muldiv R620, Base Relative format, mode B. -/
  | db (br : Reg) (dspl : Byte)
  /-- DBX: 47_int_muldiv R621, Base Relative Indexed format, mode BX. -/
  | dbx (br rx : Reg)
  /-- DIM: 47_int_muldiv R623, Immediate Opcode Extension format, mode IM. -/
  | dim (ra : Reg) (data : Word)
  /-- DVIM: 47_int_muldiv R618, Immediate Opcode Extension format, mode IM. -/
  | dvim (ra : Reg) (data : Word)
  /-- FAR: 48_float R644, Register-to-Register format, mode R. -/
  | far (ra rb : Reg)
  /-- FAB: 48_float R645, Base Relative format, mode B. -/
  | fab (br : Reg) (dspl : Byte)
  /-- FABX: 48_float R646, Base Relative Indexed format, mode BX. -/
  | fabx (br rx : Reg)
  /-- FA: 48_float R647, Long format, mode D/DX. -/
  | fa (ra rx : Reg) (addr : Word)
  /-- EFAR: 48_float R648, Register-to-Register format, mode R. -/
  | efar (ra rb : Reg)
  /-- EFA: 48_float R649, Long format, mode D/DX. -/
  | efa (ra rx : Reg) (addr : Word)
  /-- FABS: 48_float R650, Register-to-Register format, mode R. -/
  | fabs (ra rb : Reg)
  /-- FSR: 48_float R651, Register-to-Register format, mode R. -/
  | fsr (ra rb : Reg)
  /-- FSB: 48_float R652, Base Relative format, mode B. -/
  | fsb (br : Reg) (dspl : Byte)
  /-- FSBX: 48_float R653, Base Relative Indexed format, mode BX. -/
  | fsbx (br rx : Reg)
  /-- FS: 48_float R654, Long format, mode D/DX. -/
  | fs (ra rx : Reg) (addr : Word)
  /-- EFSR: 48_float R655, Register-to-Register format, mode R. -/
  | efsr (ra rb : Reg)
  /-- EFS: 48_float R656, Long format, mode D/DX. -/
  | efs (ra rx : Reg) (addr : Word)
  /-- FNEG: 48_float R657, Register-to-Register format, mode R. -/
  | fneg (ra rb : Reg)
  /-- FMR: 48_float R659, Register-to-Register format, mode R. -/
  | fmr (ra rb : Reg)
  /-- FMB: 48_float R660, Base Relative format, mode B. -/
  | fmb (br : Reg) (dspl : Byte)
  /-- FMBX: 48_float R661, Base Relative Indexed format, mode BX. -/
  | fmbx (br rx : Reg)
  /-- FM: 48_float R662, Long format, mode D/DX. -/
  | fm (ra rx : Reg) (addr : Word)
  /-- EFMR: 48_float R663, Register-to-Register format, mode R. -/
  | efmr (ra rb : Reg)
  /-- EFM: 48_float R664, Long format, mode D/DX. -/
  | efm (ra rx : Reg) (addr : Word)
  /-- FDR: 48_float R666, Register-to-Register format, mode R. -/
  | fdr (ra rb : Reg)
  /-- FDB: 48_float R667, Base Relative format, mode B. -/
  | fdb (br : Reg) (dspl : Byte)
  /-- FDBX: 48_float R668, Base Relative Indexed format, mode BX. -/
  | fdbx (br rx : Reg)
  /-- FD: 48_float R669, Long format, mode D/DX. -/
  | fd (ra rx : Reg) (addr : Word)
  /-- EFDR: 48_float R670, Register-to-Register format, mode R. -/
  | efdr (ra rb : Reg)
  /-- EFD: 48_float R671, Long format, mode D/DX. -/
  | efd (ra rx : Reg) (addr : Word)
  /-- FIX: 48_float R672, Register-to-Register format, mode R. -/
  | fix (ra rb : Reg)
  /-- FLT: 48_float R673, Register-to-Register format, mode R. -/
  | flt (ra rb : Reg)
  /-- EFIX: 48_float R674, Register-to-Register format, mode R. -/
  | efix (ra rb : Reg)
  /-- EFLT: 48_float R675, Register-to-Register format, mode R. -/
  | eflt (ra rb : Reg)
  /-- FCR: 48_float R677, Register-to-Register format, mode R. -/
  | fcr (ra rb : Reg)
  /-- FCB: 48_float R678, Base Relative format, mode B. -/
  | fcb (br : Reg) (dspl : Byte)
  /-- FCBX: 48_float R679, Base Relative Indexed format, mode BX. -/
  | fcbx (br rx : Reg)
  /-- FC: 48_float R680, Long format, mode D/DX. -/
  | fc (ra rx : Reg) (addr : Word)
  /-- EFCR: 48_float R681, Register-to-Register format, mode R. -/
  | efcr (ra rb : Reg)
  /-- EFC: 48_float R682, Long format, mode D/DX. -/
  | efc (ra rx : Reg) (addr : Word)
  /-- OR: 49_logic_compare_misc R704, Long format, mode D/DX. -/
  | or (ra rx : Reg) (addr : Word)
  /-- ORR: 49_logic_compare_misc R701, Register-to-Register format, mode R. -/
  | orr (ra rb : Reg)
  /-- AND: 49_logic_compare_misc R709, Long format, mode D/DX. -/
  | and (ra rx : Reg) (addr : Word)
  /-- ANDR: 49_logic_compare_misc R706, Register-to-Register format, mode R. -/
  | andr (ra rb : Reg)
  /-- XOR: 49_logic_compare_misc R712, Long format, mode D/DX. -/
  | xor (ra rx : Reg) (addr : Word)
  /-- XORR: 49_logic_compare_misc R711, Register-to-Register format, mode R. -/
  | xorr (ra rb : Reg)
  /-- N: 49_logic_compare_misc R715, Long format, mode D/DX. -/
  | n (ra rx : Reg) (addr : Word)
  /-- NR: 49_logic_compare_misc R714, Register-to-Register format, mode R. -/
  | nr (ra rb : Reg)
  /-- XBR: 49_logic_compare_misc R720, Special format, mode S. -/
  | xbr (ra : Reg)
  /-- XWR: 49_logic_compare_misc R721, Register-to-Register format, mode R. -/
  | xwr (ra rb : Reg)
  /-- ORB: 49_logic_compare_misc R702, Base Relative format, mode B. -/
  | orb (br : Reg) (dspl : Byte)
  /-- ANDB: 49_logic_compare_misc R707, Base Relative format, mode B. -/
  | andb (br : Reg) (dspl : Byte)
  /-- CB: 49_logic_compare_misc R723, Base Relative format, mode B. -/
  | cb (br : Reg) (dspl : Byte)
  /-- CBX: 49_logic_compare_misc R724, Base Relative Indexed format, mode BX. -/
  | cbx (br rx : Reg)
  /-- ANDX: 49_logic_compare_misc R708, Base Relative Indexed format, mode BX. -/
  | andx (br rx : Reg)
  /-- ORBX: 49_logic_compare_misc R703, Base Relative Indexed format, mode BX. -/
  | orbx (br rx : Reg)
  /-- ANDM: 49_logic_compare_misc R710, Immediate Opcode Extension format, mode IM. -/
  | andm (ra : Reg) (data : Word)
  /-- ORIM: 49_logic_compare_misc R705, Immediate Opcode Extension format, mode IM. -/
  | orim (ra : Reg) (data : Word)
  /-- XORM: 49_logic_compare_misc R713, Immediate Opcode Extension format, mode IM. -/
  | xorm (ra : Reg) (data : Word)
  /-- CIM: 49_logic_compare_misc R728, Immediate Opcode Extension format, mode IM. -/
  | cim (ra : Reg) (data : Word)
  /-- NIM: 49_logic_compare_misc R716, Immediate Opcode Extension format, mode IM. -/
  | nim (ra : Reg) (data : Word)
  /-- C: 49_logic_compare_misc R727, Long format, mode D/DX. -/
  | c (ra rx : Reg) (addr : Word)
  /-- CR: 49_logic_compare_misc R722, Register-to-Register format, mode R. -/
  | cr (ra rb : Reg)
  /-- CISP: 49_logic_compare_misc R725, Register-to-Register format, mode ISP. -/
  | cisp (ra : Reg) (n : Nat)
  /-- CISN: 49_logic_compare_misc R726, Register-to-Register format, mode ISN. -/
  | cisn (ra : Reg) (n : Nat)
  /-- CBL: 49_logic_compare_misc R735, Long format, mode D/DX. -/
  | cbl (ra rx : Reg) (addr : Word)
  /-- DC: 49_logic_compare_misc R737, Long format, mode D/DX. -/
  | dc (ra rx : Reg) (addr : Word)
  /-- DCR: 49_logic_compare_misc R736, Register-to-Register format, mode R. -/
  | dcr (ra rb : Reg)
  /-- NOP: 49_logic_compare_misc R743, Special format, mode S. -/
  | nop
  /-- BPT: 49_logic_compare_misc R744, Special format, mode S. -/
  | bpt
  /-- BIF: 49_logic_compare_misc R745, Special format, mode S. -/
  | bif (opex : Byte)
deriving DecidableEq, Repr

/-- The length of an instruction in words (30_encoding R250, R259). An implemented Built-In-Function is longer by the words
that `Config.bifSet` gives for its Op.Ex. (R277); its meaning fetches them (`Machine.execBif`). -/
def Instr.words : Instr → Nat
  | .xio _ _ _ => 2
  | .vio _ _ _ => 2
  | .sb _ _ _ => 2
  | .sbr _ _ => 1
  | .sbi _ _ _ => 2
  | .rb _ _ _ => 2
  | .rbr _ _ => 1
  | .rbi _ _ _ => 2
  | .tb _ _ _ => 2
  | .tbr _ _ => 1
  | .tbi _ _ _ => 2
  | .tsb _ _ _ => 2
  | .svbr _ _ => 1
  | .rvbr _ _ => 1
  | .tvbr _ _ => 1
  | .sll _ _ => 1
  | .srl _ _ => 1
  | .sra _ _ => 1
  | .slc _ _ => 1
  | .dsll _ _ => 1
  | .dsrl _ _ => 1
  | .dsra _ _ => 1
  | .dslc _ _ => 1
  | .slr _ _ => 1
  | .sar _ _ => 1
  | .scr _ _ => 1
  | .dslr _ _ => 1
  | .dsar _ _ => 1
  | .dscr _ _ => 1
  | .jc _ _ _ => 2
  | .jci _ _ _ => 2
  | .js _ _ _ => 2
  | .soj _ _ _ => 2
  | .br _ => 1
  | .bez _ => 1
  | .blt _ => 1
  | .ble _ => 1
  | .bgt _ => 1
  | .bnz _ => 1
  | .bge _ => 1
  | .bex _ => 1
  | .lsti _ _ => 2
  | .lst _ _ => 2
  | .sjs _ _ _ => 2
  | .urs _ => 1
  | .l _ _ _ => 2
  | .lr _ _ => 1
  | .lisp _ _ => 1
  | .lisn _ _ => 1
  | .li _ _ _ => 2
  | .lim _ _ _ => 2
  | .dl _ _ _ => 2
  | .dlr _ _ => 1
  | .dli _ _ _ => 2
  | .lm _ _ _ => 2
  | .efl _ _ _ => 2
  | .lub _ _ _ => 2
  | .llb _ _ _ => 2
  | .lubi _ _ _ => 2
  | .llbi _ _ _ => 2
  | .popm _ _ => 1
  | .lb _ _ => 1
  | .dlb _ _ => 1
  | .lbx _ _ => 1
  | .dlbx _ _ => 1
  | .st _ _ _ => 2
  | .stc _ _ _ => 2
  | .stci _ _ _ => 2
  | .mov _ _ => 1
  | .sti _ _ _ => 2
  | .dst _ _ _ => 2
  | .srm _ _ _ => 2
  | .dsti _ _ _ => 2
  | .stm _ _ _ => 2
  | .efst _ _ _ => 2
  | .stub _ _ _ => 2
  | .stlb _ _ _ => 2
  | .subi _ _ _ => 2
  | .slbi _ _ _ => 2
  | .pshm _ _ => 1
  | .stb _ _ => 1
  | .dstb _ _ => 1
  | .stbx _ _ => 1
  | .dstx _ _ => 1
  | .a _ _ _ => 2
  | .ar _ _ => 1
  | .aisp _ _ => 1
  | .incm _ _ _ => 2
  | .abs _ _ => 1
  | .dabs _ _ => 1
  | .da _ _ _ => 2
  | .dar _ _ => 1
  | .ab _ _ => 1
  | .abx _ _ => 1
  | .aim _ _ => 2
  | .s _ _ _ => 2
  | .sr _ _ => 1
  | .sisp _ _ => 1
  | .decm _ _ _ => 2
  | .neg _ _ => 1
  | .dneg _ _ => 1
  | .ds _ _ _ => 2
  | .dsr _ _ => 1
  | .sbb _ _ => 1
  | .sbbx _ _ => 1
  | .sim _ _ => 2
  | .ms _ _ _ => 2
  | .msr _ _ => 1
  | .misp _ _ => 1
  | .misn _ _ => 1
  | .m _ _ _ => 2
  | .mr _ _ => 1
  | .dm _ _ _ => 2
  | .dmr _ _ => 1
  | .mb _ _ => 1
  | .mbx _ _ => 1
  | .mim _ _ => 2
  | .msim _ _ => 2
  | .dv _ _ _ => 2
  | .dvr _ _ => 1
  | .disp _ _ => 1
  | .disn _ _ => 1
  | .d _ _ _ => 2
  | .dr _ _ => 1
  | .dd _ _ _ => 2
  | .ddr _ _ => 1
  | .db _ _ => 1
  | .dbx _ _ => 1
  | .dim _ _ => 2
  | .dvim _ _ => 2
  | .far _ _ => 1
  | .fab _ _ => 1
  | .fabx _ _ => 1
  | .fa _ _ _ => 2
  | .efar _ _ => 1
  | .efa _ _ _ => 2
  | .fabs _ _ => 1
  | .fsr _ _ => 1
  | .fsb _ _ => 1
  | .fsbx _ _ => 1
  | .fs _ _ _ => 2
  | .efsr _ _ => 1
  | .efs _ _ _ => 2
  | .fneg _ _ => 1
  | .fmr _ _ => 1
  | .fmb _ _ => 1
  | .fmbx _ _ => 1
  | .fm _ _ _ => 2
  | .efmr _ _ => 1
  | .efm _ _ _ => 2
  | .fdr _ _ => 1
  | .fdb _ _ => 1
  | .fdbx _ _ => 1
  | .fd _ _ _ => 2
  | .efdr _ _ => 1
  | .efd _ _ _ => 2
  | .fix _ _ => 1
  | .flt _ _ => 1
  | .efix _ _ => 1
  | .eflt _ _ => 1
  | .fcr _ _ => 1
  | .fcb _ _ => 1
  | .fcbx _ _ => 1
  | .fc _ _ _ => 2
  | .efcr _ _ => 1
  | .efc _ _ _ => 2
  | .or _ _ _ => 2
  | .orr _ _ => 1
  | .and _ _ _ => 2
  | .andr _ _ => 1
  | .xor _ _ _ => 2
  | .xorr _ _ => 1
  | .n _ _ _ => 2
  | .nr _ _ => 1
  | .xbr _ => 1
  | .xwr _ _ => 1
  | .orb _ _ => 1
  | .andb _ _ => 1
  | .cb _ _ => 1
  | .cbx _ _ => 1
  | .andx _ _ => 1
  | .orbx _ _ => 1
  | .andm _ _ => 2
  | .orim _ _ => 2
  | .xorm _ _ => 2
  | .cim _ _ => 2
  | .nim _ _ => 2
  | .c _ _ _ => 2
  | .cr _ _ => 1
  | .cisp _ _ => 1
  | .cisn _ _ => 1
  | .cbl _ _ _ => 2
  | .dc _ _ _ => 2
  | .dcr _ _ => 1
  | .nop => 1
  | .bpt => 1
  | .bif _ => 1

end Sys2Proof
end

