-- ==== Sys2Proof/WellFormed.lean ====
section
/-! DEFINITION. Which instruction terms an encoding can hold: the base register fields name R12 to R15 only (30_encoding
R254, R255), and the fields that hold a number less one hold 1 to 16 (R267, R268, R291; 42_shift R420). Every other operand
is well formed by its type. -/

namespace Sys2Proof

/-- A base register: R12, R13, R14 or R15 (30_encoding R254). -/
def baseOk (br : Reg) : Bool := decide (12 ≤ br.val)

/-- A number that an encoding holds less one in four bits: 1 to 16 (30_encoding R267). -/
def countOk (n : Nat) : Bool := decide (1 ≤ n) && decide (n ≤ 16)

/-- The well-formedness of an instruction term. -/
def Instr.wellFormed : Instr → Bool
  | .xio _ _ _ => true
  | .vio _ _ _ => true
  | .sb _ _ _ => true
  | .sbr _ _ => true
  | .sbi _ _ _ => true
  | .rb _ _ _ => true
  | .rbr _ _ => true
  | .rbi _ _ _ => true
  | .tb _ _ _ => true
  | .tbr _ _ => true
  | .tbi _ _ _ => true
  | .tsb _ _ _ => true
  | .svbr _ _ => true
  | .rvbr _ _ => true
  | .tvbr _ _ => true
  | .sll _ k => countOk k
  | .srl _ k => countOk k
  | .sra _ k => countOk k
  | .slc _ k => countOk k
  | .dsll _ k => countOk k
  | .dsrl _ k => countOk k
  | .dsra _ k => countOk k
  | .dslc _ k => countOk k
  | .slr _ _ => true
  | .sar _ _ => true
  | .scr _ _ => true
  | .dslr _ _ => true
  | .dsar _ _ => true
  | .dscr _ _ => true
  | .jc _ _ _ => true
  | .jci _ _ _ => true
  | .js _ _ _ => true
  | .soj _ _ _ => true
  | .br _ => true
  | .bez _ => true
  | .blt _ => true
  | .ble _ => true
  | .bgt _ => true
  | .bnz _ => true
  | .bge _ => true
  | .bex _ => true
  | .lsti _ _ => true
  | .lst _ _ => true
  | .sjs _ _ _ => true
  | .urs _ => true
  | .l _ _ _ => true
  | .lr _ _ => true
  | .lisp _ k => countOk k
  | .lisn _ k => countOk k
  | .li _ _ _ => true
  | .lim _ _ _ => true
  | .dl _ _ _ => true
  | .dlr _ _ => true
  | .dli _ _ _ => true
  | .lm _ _ _ => true
  | .efl _ _ _ => true
  | .lub _ _ _ => true
  | .llb _ _ _ => true
  | .lubi _ _ _ => true
  | .llbi _ _ _ => true
  | .popm _ _ => true
  | .lb base _ => baseOk base
  | .dlb base _ => baseOk base
  | .lbx base _ => baseOk base
  | .dlbx base _ => baseOk base
  | .st _ _ _ => true
  | .stc _ _ _ => true
  | .stci _ _ _ => true
  | .mov _ _ => true
  | .sti _ _ _ => true
  | .dst _ _ _ => true
  | .srm _ _ _ => true
  | .dsti _ _ _ => true
  | .stm _ _ _ => true
  | .efst _ _ _ => true
  | .stub _ _ _ => true
  | .stlb _ _ _ => true
  | .subi _ _ _ => true
  | .slbi _ _ _ => true
  | .pshm _ _ => true
  | .stb base _ => baseOk base
  | .dstb base _ => baseOk base
  | .stbx base _ => baseOk base
  | .dstx base _ => baseOk base
  | .a _ _ _ => true
  | .ar _ _ => true
  | .aisp _ k => countOk k
  | .incm k _ _ => countOk k
  | .abs _ _ => true
  | .dabs _ _ => true
  | .da _ _ _ => true
  | .dar _ _ => true
  | .ab base _ => baseOk base
  | .abx base _ => baseOk base
  | .aim _ _ => true
  | .s _ _ _ => true
  | .sr _ _ => true
  | .sisp _ k => countOk k
  | .decm k _ _ => countOk k
  | .neg _ _ => true
  | .dneg _ _ => true
  | .ds _ _ _ => true
  | .dsr _ _ => true
  | .sbb base _ => baseOk base
  | .sbbx base _ => baseOk base
  | .sim _ _ => true
  | .ms _ _ _ => true
  | .msr _ _ => true
  | .misp _ k => countOk k
  | .misn _ k => countOk k
  | .m _ _ _ => true
  | .mr _ _ => true
  | .dm _ _ _ => true
  | .dmr _ _ => true
  | .mb base _ => baseOk base
  | .mbx base _ => baseOk base
  | .mim _ _ => true
  | .msim _ _ => true
  | .dv _ _ _ => true
  | .dvr _ _ => true
  | .disp _ k => countOk k
  | .disn _ k => countOk k
  | .d _ _ _ => true
  | .dr _ _ => true
  | .dd _ _ _ => true
  | .ddr _ _ => true
  | .db base _ => baseOk base
  | .dbx base _ => baseOk base
  | .dim _ _ => true
  | .dvim _ _ => true
  | .far _ _ => true
  | .fab base _ => baseOk base
  | .fabx base _ => baseOk base
  | .fa _ _ _ => true
  | .efar _ _ => true
  | .efa _ _ _ => true
  | .fabs _ _ => true
  | .fsr _ _ => true
  | .fsb base _ => baseOk base
  | .fsbx base _ => baseOk base
  | .fs _ _ _ => true
  | .efsr _ _ => true
  | .efs _ _ _ => true
  | .fneg _ _ => true
  | .fmr _ _ => true
  | .fmb base _ => baseOk base
  | .fmbx base _ => baseOk base
  | .fm _ _ _ => true
  | .efmr _ _ => true
  | .efm _ _ _ => true
  | .fdr _ _ => true
  | .fdb base _ => baseOk base
  | .fdbx base _ => baseOk base
  | .fd _ _ _ => true
  | .efdr _ _ => true
  | .efd _ _ _ => true
  | .fix _ _ => true
  | .flt _ _ => true
  | .efix _ _ => true
  | .eflt _ _ => true
  | .fcr _ _ => true
  | .fcb base _ => baseOk base
  | .fcbx base _ => baseOk base
  | .fc _ _ _ => true
  | .efcr _ _ => true
  | .efc _ _ _ => true
  | .or _ _ _ => true
  | .orr _ _ => true
  | .and _ _ _ => true
  | .andr _ _ => true
  | .xor _ _ _ => true
  | .xorr _ _ => true
  | .n _ _ _ => true
  | .nr _ _ => true
  | .xbr _ => true
  | .xwr _ _ => true
  | .orb base _ => baseOk base
  | .andb base _ => baseOk base
  | .cb base _ => baseOk base
  | .cbx base _ => baseOk base
  | .andx base _ => baseOk base
  | .orbx base _ => baseOk base
  | .andm _ _ => true
  | .orim _ _ => true
  | .xorm _ _ => true
  | .cim _ _ => true
  | .nim _ _ => true
  | .c _ _ _ => true
  | .cr _ _ => true
  | .cisp _ k => countOk k
  | .cisn _ k => countOk k
  | .cbl _ _ _ => true
  | .dc _ _ _ => true
  | .dcr _ _ => true
  | .nop => true
  | .bpt => true
  | .bif _ => true

end Sys2Proof
end

