-- ==== Sys2Proof/Decode.lean ====
section
/-! DEFINITION. Decoding (30_encoding R259, R260, R261, R276, R279) and encoding (R250 to R258, R291). -/

namespace Sys2Proof

/-- Why a list of words is no instruction. -/
inductive DecodeError where
  /-- The opcode byte is an empty cell of the matrix of 30_encoding R261. -/
  | undefinedOpcode (op : Byte)
  /-- The opcode extension of 4A, or the low byte of FF, is not assigned (30_encoding R276). -/
  | undefinedExtension (w0 : Word)
  /-- A field that the format prints as a constant holds another value (30_encoding R260 step 6, decision D15). -/
  | reservedField (w0 : Word)
  /-- The list of words ends before the instruction does. -/
  | truncated
deriving DecidableEq, Repr

/-! ## Fields of a first word, in value numbering (30_encoding R251) -/

/-- The opcode byte `w0[15:8]`. -/
def opByte (w0 : Word) : Byte := w0.extractLsb' 8 8

/-- The high digit of the opcode byte, the column of the matrix of R261. -/
def opHigh (w0 : Word) : Nat := (w0.extractLsb' 12 4).toNat

/-- The low digit of the opcode byte, the row of the matrix of R261. -/
def opLow (w0 : Word) : Nat := (w0.extractLsb' 8 4).toNat

/-- The four-bit field `w0[7:4]` (GR1) as a number. -/
def gr1 (w0 : Word) : Fin 16 := (w0.extractLsb' 4 4).toFin

/-- The four-bit field `w0[3:0]` (GR2, RX or Op.Ex.) as a number. -/
def gr2 (w0 : Word) : Fin 16 := (w0.extractLsb' 0 4).toFin

/-- The low byte `w0[7:0]` (a displacement or an opcode extension). -/
def lowByte (w0 : Word) : Byte := w0.extractLsb' 0 8

/-- The base register `R[12 + w0[9:8]]` (30_encoding R254). -/
def baseReg (w0 : Word) : Reg := Fin.ofNat 16 (12 + (w0.extractLsb' 8 2).toNat)

/-- The number 1 to 16 that `w0[3:0]` holds less one (30_encoding R267, R268). -/
def countLow (w0 : Word) : Nat := (gr2 w0).val + 1

/-- The number 1 to 16 that `w0[7:4]` holds less one (42_shift R420, 46_int_addsub R567). -/
def countHigh (w0 : Word) : Nat := (gr1 w0).val + 1

/-- The answer for an empty cell of the matrix. -/
def noOpcode (w0 : Word) : Except DecodeError Instr := .error (.undefinedOpcode (opByte w0))

/-! ## The matrix of 30_encoding R261, one definition per column -/

/-- Column 0: Load/Store, base relative; `w0[11:10]` chooses the operation. -/
def decodeColumn0 (w0 : Word) : Instr :=
  match (w0.extractLsb' 10 2).toNat with
  | 0 => .lb (baseReg w0) (lowByte w0)
  | 1 => .dlb (baseReg w0) (lowByte w0)
  | 2 => .stb (baseReg w0) (lowByte w0)
  | _ => .dstb (baseReg w0) (lowByte w0)

/-- Column 1: Integer Arithmetic, base relative; `w0[11:10]` chooses the operation. -/
def decodeColumn1 (w0 : Word) : Instr :=
  match (w0.extractLsb' 10 2).toNat with
  | 0 => .ab (baseReg w0) (lowByte w0)
  | 1 => .sbb (baseReg w0) (lowByte w0)
  | 2 => .mb (baseReg w0) (lowByte w0)
  | _ => .db (baseReg w0) (lowByte w0)

/-- Column 2: Floating Point, base relative; `w0[11:10]` chooses the operation. -/
def decodeColumn2 (w0 : Word) : Instr :=
  match (w0.extractLsb' 10 2).toNat with
  | 0 => .fab (baseReg w0) (lowByte w0)
  | 1 => .fsb (baseReg w0) (lowByte w0)
  | 2 => .fmb (baseReg w0) (lowByte w0)
  | _ => .fdb (baseReg w0) (lowByte w0)

/-- Column 3: Logic/Compare, base relative; `w0[11:10]` chooses the operation. -/
def decodeColumn3 (w0 : Word) : Instr :=
  match (w0.extractLsb' 10 2).toNat with
  | 0 => .orb (baseReg w0) (lowByte w0)
  | 1 => .andb (baseReg w0) (lowByte w0)
  | 2 => .cb (baseReg w0) (lowByte w0)
  | _ => .fcb (baseReg w0) (lowByte w0)

/-- Opcode bytes 40 to 43: the Base Relative Indexed operations, chosen by `w0[7:4]` (30_encoding R279). -/
def decodeIndexed (w0 : Word) : Instr :=
  match (gr1 w0).val with
  | 0 => .lbx (baseReg w0) (gr2 w0)
  | 1 => .dlbx (baseReg w0) (gr2 w0)
  | 2 => .stbx (baseReg w0) (gr2 w0)
  | 3 => .dstx (baseReg w0) (gr2 w0)
  | 4 => .abx (baseReg w0) (gr2 w0)
  | 5 => .sbbx (baseReg w0) (gr2 w0)
  | 6 => .mbx (baseReg w0) (gr2 w0)
  | 7 => .dbx (baseReg w0) (gr2 w0)
  | 8 => .fabx (baseReg w0) (gr2 w0)
  | 9 => .fsbx (baseReg w0) (gr2 w0)
  | 10 => .fmbx (baseReg w0) (gr2 w0)
  | 11 => .fdbx (baseReg w0) (gr2 w0)
  | 12 => .cbx (baseReg w0) (gr2 w0)
  | 13 => .fcbx (baseReg w0) (gr2 w0)
  | 14 => .andx (baseReg w0) (gr2 w0)
  | _ => .orbx (baseReg w0) (gr2 w0)

/-- Opcode byte 4A: the Immediate Opcode Extension operations, chosen by `w0[3:0]` (30_encoding R279). -/
def decodeImmediate (w0 w1 : Word) : Except DecodeError Instr :=
  match (gr2 w0).val with
  | 1 => .ok (.aim (gr1 w0) w1)
  | 2 => .ok (.sim (gr1 w0) w1)
  | 3 => .ok (.mim (gr1 w0) w1)
  | 4 => .ok (.msim (gr1 w0) w1)
  | 5 => .ok (.dim (gr1 w0) w1)
  | 6 => .ok (.dvim (gr1 w0) w1)
  | 7 => .ok (.andm (gr1 w0) w1)
  | 8 => .ok (.orim (gr1 w0) w1)
  | 9 => .ok (.xorm (gr1 w0) w1)
  | 10 => .ok (.cim (gr1 w0) w1)
  | 11 => .ok (.nim (gr1 w0) w1)
  | _ => .error (.undefinedExtension w0)

/-- Column 4: the opcode extensions, XIO, VIO and BIF. -/
def decodeColumn4 (w0 w1 : Word) : Except DecodeError Instr :=
  match opLow w0 with
  | 0 => .ok (decodeIndexed w0)
  | 1 => .ok (decodeIndexed w0)
  | 2 => .ok (decodeIndexed w0)
  | 3 => .ok (decodeIndexed w0)
  | 8 => .ok (.xio (gr1 w0) (gr2 w0) w1)
  | 9 => .ok (.vio (gr1 w0) (gr2 w0) w1)
  | 10 => decodeImmediate w0 w1
  | 15 => .ok (.bif (lowByte w0))
  | _ => noOpcode w0

/-- Column 5: Bit. -/
def decodeColumn5 (w0 w1 : Word) : Except DecodeError Instr :=
  match opLow w0 with
  | 0 => .ok (.sb (gr1 w0) (gr2 w0) w1)
  | 1 => .ok (.sbr (gr1 w0) (gr2 w0))
  | 2 => .ok (.sbi (gr1 w0) (gr2 w0) w1)
  | 3 => .ok (.rb (gr1 w0) (gr2 w0) w1)
  | 4 => .ok (.rbr (gr1 w0) (gr2 w0))
  | 5 => .ok (.rbi (gr1 w0) (gr2 w0) w1)
  | 6 => .ok (.tb (gr1 w0) (gr2 w0) w1)
  | 7 => .ok (.tbr (gr1 w0) (gr2 w0))
  | 8 => .ok (.tbi (gr1 w0) (gr2 w0) w1)
  | 9 => .ok (.tsb (gr1 w0) (gr2 w0) w1)
  | 10 => .ok (.svbr (gr1 w0) (gr2 w0))
  | 12 => .ok (.rvbr (gr1 w0) (gr2 w0))
  | 14 => .ok (.tvbr (gr1 w0) (gr2 w0))
  | _ => noOpcode w0

/-- Column 6: Shift. -/
def decodeColumn6 (w0 : Word) : Except DecodeError Instr :=
  match opLow w0 with
  | 0 => .ok (.sll (gr2 w0) (countHigh w0))
  | 1 => .ok (.srl (gr2 w0) (countHigh w0))
  | 2 => .ok (.sra (gr2 w0) (countHigh w0))
  | 3 => .ok (.slc (gr2 w0) (countHigh w0))
  | 5 => .ok (.dsll (gr2 w0) (countHigh w0))
  | 6 => .ok (.dsrl (gr2 w0) (countHigh w0))
  | 7 => .ok (.dsra (gr2 w0) (countHigh w0))
  | 8 => .ok (.dslc (gr2 w0) (countHigh w0))
  | 10 => .ok (.slr (gr1 w0) (gr2 w0))
  | 11 => .ok (.sar (gr1 w0) (gr2 w0))
  | 12 => .ok (.scr (gr1 w0) (gr2 w0))
  | 13 => .ok (.dslr (gr1 w0) (gr2 w0))
  | 14 => .ok (.dsar (gr1 w0) (gr2 w0))
  | 15 => .ok (.dscr (gr1 w0) (gr2 w0))
  | _ => noOpcode w0

/-- Column 7: Jump. -/
def decodeColumn7 (w0 w1 : Word) : Except DecodeError Instr :=
  match opLow w0 with
  | 0 => .ok (.jc (BitVec.ofFin (gr1 w0)) (gr2 w0) w1)
  | 1 => .ok (.jci (BitVec.ofFin (gr1 w0)) (gr2 w0) w1)
  | 2 => .ok (.js (gr1 w0) (gr2 w0) w1)
  | 3 => .ok (.soj (gr1 w0) (gr2 w0) w1)
  | 4 => .ok (.br (lowByte w0))
  | 5 => .ok (.bez (lowByte w0))
  | 6 => .ok (.blt (lowByte w0))
  | 7 => if (gr1 w0).val = 0 then .ok (.bex (gr2 w0)) else .error (.reservedField w0)
  | 8 => .ok (.ble (lowByte w0))
  | 9 => .ok (.bgt (lowByte w0))
  | 10 => .ok (.bnz (lowByte w0))
  | 11 => .ok (.bge (lowByte w0))
  | 12 => if (gr1 w0).val = 0 then .ok (.lsti (gr2 w0) w1) else .error (.reservedField w0)
  | 13 => if (gr1 w0).val = 0 then .ok (.lst (gr2 w0) w1) else .error (.reservedField w0)
  | 14 => .ok (.sjs (gr1 w0) (gr2 w0) w1)
  | 15 => if (gr2 w0).val = 0 then .ok (.urs (gr1 w0)) else .error (.reservedField w0)
  | _ => noOpcode w0

/-- Column 8: Load. -/
def decodeColumn8 (w0 w1 : Word) : Except DecodeError Instr :=
  match opLow w0 with
  | 0 => .ok (.l (gr1 w0) (gr2 w0) w1)
  | 1 => .ok (.lr (gr1 w0) (gr2 w0))
  | 2 => .ok (.lisp (gr1 w0) (countLow w0))
  | 3 => .ok (.lisn (gr1 w0) (countLow w0))
  | 4 => .ok (.li (gr1 w0) (gr2 w0) w1)
  | 5 => .ok (.lim (gr1 w0) (gr2 w0) w1)
  | 6 => .ok (.dl (gr1 w0) (gr2 w0) w1)
  | 7 => .ok (.dlr (gr1 w0) (gr2 w0))
  | 8 => .ok (.dli (gr1 w0) (gr2 w0) w1)
  | 9 => .ok (.lm (gr1 w0) (gr2 w0) w1)
  | 10 => .ok (.efl (gr1 w0) (gr2 w0) w1)
  | 11 => .ok (.lub (gr1 w0) (gr2 w0) w1)
  | 12 => .ok (.llb (gr1 w0) (gr2 w0) w1)
  | 13 => .ok (.lubi (gr1 w0) (gr2 w0) w1)
  | 14 => .ok (.llbi (gr1 w0) (gr2 w0) w1)
  | 15 => .ok (.popm (gr1 w0) (gr2 w0))
  | _ => noOpcode w0

/-- Column 9: Store. -/
def decodeColumn9 (w0 w1 : Word) : Except DecodeError Instr :=
  match opLow w0 with
  | 0 => .ok (.st (gr1 w0) (gr2 w0) w1)
  | 1 => .ok (.stc (gr1 w0) (gr2 w0) w1)
  | 2 => .ok (.stci (gr1 w0) (gr2 w0) w1)
  | 3 => .ok (.mov (gr1 w0) (gr2 w0))
  | 4 => .ok (.sti (gr1 w0) (gr2 w0) w1)
  | 6 => .ok (.dst (gr1 w0) (gr2 w0) w1)
  | 7 => .ok (.srm (gr1 w0) (gr2 w0) w1)
  | 8 => .ok (.dsti (gr1 w0) (gr2 w0) w1)
  | 9 => .ok (.stm (gr1 w0) (gr2 w0) w1)
  | 10 => .ok (.efst (gr1 w0) (gr2 w0) w1)
  | 11 => .ok (.stub (gr1 w0) (gr2 w0) w1)
  | 12 => .ok (.stlb (gr1 w0) (gr2 w0) w1)
  | 13 => .ok (.subi (gr1 w0) (gr2 w0) w1)
  | 14 => .ok (.slbi (gr1 w0) (gr2 w0) w1)
  | 15 => .ok (.pshm (gr1 w0) (gr2 w0))
  | _ => noOpcode w0

/-- Column A: Add. -/
def decodeColumnA (w0 w1 : Word) : Except DecodeError Instr :=
  match opLow w0 with
  | 0 => .ok (.a (gr1 w0) (gr2 w0) w1)
  | 1 => .ok (.ar (gr1 w0) (gr2 w0))
  | 2 => .ok (.aisp (gr1 w0) (countLow w0))
  | 3 => .ok (.incm (countHigh w0) (gr2 w0) w1)
  | 4 => .ok (.abs (gr1 w0) (gr2 w0))
  | 5 => .ok (.dabs (gr1 w0) (gr2 w0))
  | 6 => .ok (.da (gr1 w0) (gr2 w0) w1)
  | 7 => .ok (.dar (gr1 w0) (gr2 w0))
  | 8 => .ok (.fa (gr1 w0) (gr2 w0) w1)
  | 9 => .ok (.far (gr1 w0) (gr2 w0))
  | 10 => .ok (.efa (gr1 w0) (gr2 w0) w1)
  | 11 => .ok (.efar (gr1 w0) (gr2 w0))
  | 12 => .ok (.fabs (gr1 w0) (gr2 w0))
  | _ => noOpcode w0

/-- Column B: Sub. -/
def decodeColumnB (w0 w1 : Word) : Except DecodeError Instr :=
  match opLow w0 with
  | 0 => .ok (.s (gr1 w0) (gr2 w0) w1)
  | 1 => .ok (.sr (gr1 w0) (gr2 w0))
  | 2 => .ok (.sisp (gr1 w0) (countLow w0))
  | 3 => .ok (.decm (countHigh w0) (gr2 w0) w1)
  | 4 => .ok (.neg (gr1 w0) (gr2 w0))
  | 5 => .ok (.dneg (gr1 w0) (gr2 w0))
  | 6 => .ok (.ds (gr1 w0) (gr2 w0) w1)
  | 7 => .ok (.dsr (gr1 w0) (gr2 w0))
  | 8 => .ok (.fs (gr1 w0) (gr2 w0) w1)
  | 9 => .ok (.fsr (gr1 w0) (gr2 w0))
  | 10 => .ok (.efs (gr1 w0) (gr2 w0) w1)
  | 11 => .ok (.efsr (gr1 w0) (gr2 w0))
  | 12 => .ok (.fneg (gr1 w0) (gr2 w0))
  | _ => noOpcode w0

/-- Column C: Mult. -/
def decodeColumnC (w0 w1 : Word) : Except DecodeError Instr :=
  match opLow w0 with
  | 0 => .ok (.ms (gr1 w0) (gr2 w0) w1)
  | 1 => .ok (.msr (gr1 w0) (gr2 w0))
  | 2 => .ok (.misp (gr1 w0) (countLow w0))
  | 3 => .ok (.misn (gr1 w0) (countLow w0))
  | 4 => .ok (.m (gr1 w0) (gr2 w0) w1)
  | 5 => .ok (.mr (gr1 w0) (gr2 w0))
  | 6 => .ok (.dm (gr1 w0) (gr2 w0) w1)
  | 7 => .ok (.dmr (gr1 w0) (gr2 w0))
  | 8 => .ok (.fm (gr1 w0) (gr2 w0) w1)
  | 9 => .ok (.fmr (gr1 w0) (gr2 w0))
  | 10 => .ok (.efm (gr1 w0) (gr2 w0) w1)
  | 11 => .ok (.efmr (gr1 w0) (gr2 w0))
  | _ => noOpcode w0

/-- Column D: Divide. -/
def decodeColumnD (w0 w1 : Word) : Except DecodeError Instr :=
  match opLow w0 with
  | 0 => .ok (.dv (gr1 w0) (gr2 w0) w1)
  | 1 => .ok (.dvr (gr1 w0) (gr2 w0))
  | 2 => .ok (.disp (gr1 w0) (countLow w0))
  | 3 => .ok (.disn (gr1 w0) (countLow w0))
  | 4 => .ok (.d (gr1 w0) (gr2 w0) w1)
  | 5 => .ok (.dr (gr1 w0) (gr2 w0))
  | 6 => .ok (.dd (gr1 w0) (gr2 w0) w1)
  | 7 => .ok (.ddr (gr1 w0) (gr2 w0))
  | 8 => .ok (.fd (gr1 w0) (gr2 w0) w1)
  | 9 => .ok (.fdr (gr1 w0) (gr2 w0))
  | 10 => .ok (.efd (gr1 w0) (gr2 w0) w1)
  | 11 => .ok (.efdr (gr1 w0) (gr2 w0))
  | _ => noOpcode w0

/-- Column E: Logical. -/
def decodeColumnE (w0 w1 : Word) : Except DecodeError Instr :=
  match opLow w0 with
  | 0 => .ok (.or (gr1 w0) (gr2 w0) w1)
  | 1 => .ok (.orr (gr1 w0) (gr2 w0))
  | 2 => .ok (.and (gr1 w0) (gr2 w0) w1)
  | 3 => .ok (.andr (gr1 w0) (gr2 w0))
  | 4 => .ok (.xor (gr1 w0) (gr2 w0) w1)
  | 5 => .ok (.xorr (gr1 w0) (gr2 w0))
  | 6 => .ok (.n (gr1 w0) (gr2 w0) w1)
  | 7 => .ok (.nr (gr1 w0) (gr2 w0))
  | 8 => .ok (.fix (gr1 w0) (gr2 w0))
  | 9 => .ok (.flt (gr1 w0) (gr2 w0))
  | 10 => .ok (.efix (gr1 w0) (gr2 w0))
  | 11 => .ok (.eflt (gr1 w0) (gr2 w0))
  | 12 => if (gr2 w0).val = 0 then .ok (.xbr (gr1 w0)) else .error (.reservedField w0)
  | 13 => .ok (.xwr (gr1 w0) (gr2 w0))
  | _ => noOpcode w0

/-- Column F: Compare. -/
def decodeColumnF (w0 w1 : Word) : Except DecodeError Instr :=
  match opLow w0 with
  | 0 => .ok (.c (gr1 w0) (gr2 w0) w1)
  | 1 => .ok (.cr (gr1 w0) (gr2 w0))
  | 2 => .ok (.cisp (gr1 w0) (countLow w0))
  | 3 => .ok (.cisn (gr1 w0) (countLow w0))
  | 4 => .ok (.cbl (gr1 w0) (gr2 w0) w1)
  | 6 => .ok (.dc (gr1 w0) (gr2 w0) w1)
  | 7 => .ok (.dcr (gr1 w0) (gr2 w0))
  | 8 => .ok (.fc (gr1 w0) (gr2 w0) w1)
  | 9 => .ok (.fcr (gr1 w0) (gr2 w0))
  | 10 => .ok (.efc (gr1 w0) (gr2 w0) w1)
  | 11 => .ok (.efcr (gr1 w0) (gr2 w0))
  | 15 => if lowByte w0 = 0x00#8 then .ok .nop else if lowByte w0 = 0xFF#8 then .ok .bpt else .error (.undefinedExtension w0)
  | _ => noOpcode w0

/-- Decode the first word `w0`; `w1` is the word after it, read only by two-word instructions (30_encoding R260). -/
def decode (w0 w1 : Word) : Except DecodeError Instr :=
  match opHigh w0 with
  | 0 => .ok (decodeColumn0 w0)
  | 1 => .ok (decodeColumn1 w0)
  | 2 => .ok (decodeColumn2 w0)
  | 3 => .ok (decodeColumn3 w0)
  | 4 => decodeColumn4 w0 w1
  | 5 => decodeColumn5 w0 w1
  | 6 => decodeColumn6 w0
  | 7 => decodeColumn7 w0 w1
  | 8 => decodeColumn8 w0 w1
  | 9 => decodeColumn9 w0 w1
  | 10 => decodeColumnA w0 w1
  | 11 => decodeColumnB w0 w1
  | 12 => decodeColumnC w0 w1
  | 13 => decodeColumnD w0 w1
  | 14 => decodeColumnE w0 w1
  | _ => decodeColumnF w0 w1

/-- The length in words of what `w0` begins: an undefined first word counts as one word (30_encoding R259, decision D16); the
further words of an implemented Built-In-Function are fetched by its meaning (R277). -/
def lengthOf (w0 : Word) : Nat :=
  match decode w0 0#16 with
  | .ok i => i.words
  | .error _ => 1

/-- Decode the instruction at the head of a stream of words; the rest of the stream is answered with it. -/
def decodeWords : List Word → Except DecodeError (Instr × List Word)
  | [] => .error .truncated
  | w0 :: rest =>
    match lengthOf w0, rest with
    | 2, [] => .error .truncated
    | 2, w1 :: rest' => (decode w0 w1).map fun i => (i, rest')
    | _, rest => (decode w0 0#16).map fun i => (i, rest)

/-- The instruction this decoder reads from the bits `w`, numbered as spec/opcode_table.json numbers them: bit 0 the least
significant bit of the first word, the second word in bits 31 to 16; bits from `nbits` on count as zero. -/
def decodeTableWord (nbits w : Nat) : Option Instr :=
  let v := w % 2 ^ nbits
  match decodeWords [BitVec.ofNat 16 v, BitVec.ofNat 16 (v / 2 ^ 16)] with
  | .ok (i, _) => some i
  | .error _ => none

/-! ## Encoding -/

/-- A four-bit field holding a number 0 to 15. -/
def nibble (r : Fin 16) : BitVec 4 := BitVec.ofFin r

/-- A four-bit field holding a number 1 to 16 less one. -/
def lessOne (n : Nat) : BitVec 4 := BitVec.ofNat 4 (n - 1)

/-- The two-bit base register field, BR' = BR - 12 (30_encoding R254). -/
def baseField (br : Reg) : BitVec 2 := BitVec.ofNat 2 (br.val - 12)

/-- A first word of an eight-bit opcode and two four-bit fields. -/
def pack (op : Byte) (a b : BitVec 4) : Word := (op ++ a) ++ b

/-- A first word of an eight-bit opcode and a low byte (IC Relative and Special formats). -/
def packByte (op : Byte) (x : Byte) : Word := op ++ x

/-- A first word of the Base Relative format: a six-bit opcode, the base field and a displacement. -/
def packBase (op6 : BitVec 6) (br : Reg) (x : Byte) : Word := (op6 ++ baseField br) ++ x

/-- A first word of the Base Relative Indexed format: 010000, the base field, Op.Ex. and the index register. -/
def packIndexed (opex : BitVec 4) (br rx : Reg) : Word := ((0x10#6 ++ baseField br) ++ opex) ++ nibble rx

/-- The words of an instruction, written from the encodings of 40_io to 49_logic_compare_misc. -/
def encode : Instr → List Word
  | .xio ra rx addr => [pack 0x48#8 (nibble ra) (nibble rx), addr]
  | .vio ra rx addr => [pack 0x49#8 (nibble ra) (nibble rx), addr]
  | .sb n rx addr => [pack 0x50#8 (nibble n) (nibble rx), addr]
  | .sbr n rb => [pack 0x51#8 (nibble n) (nibble rb)]
  | .sbi n rx addr => [pack 0x52#8 (nibble n) (nibble rx), addr]
  | .rb n rx addr => [pack 0x53#8 (nibble n) (nibble rx), addr]
  | .rbr n rb => [pack 0x54#8 (nibble n) (nibble rb)]
  | .rbi n rx addr => [pack 0x55#8 (nibble n) (nibble rx), addr]
  | .tb n rx addr => [pack 0x56#8 (nibble n) (nibble rx), addr]
  | .tbr n rb => [pack 0x57#8 (nibble n) (nibble rb)]
  | .tbi n rx addr => [pack 0x58#8 (nibble n) (nibble rx), addr]
  | .tsb n rx addr => [pack 0x59#8 (nibble n) (nibble rx), addr]
  | .svbr ra rb => [pack 0x5A#8 (nibble ra) (nibble rb)]
  | .rvbr ra rb => [pack 0x5C#8 (nibble ra) (nibble rb)]
  | .tvbr ra rb => [pack 0x5E#8 (nibble ra) (nibble rb)]
  | .sll rb n => [pack 0x60#8 (lessOne n) (nibble rb)]
  | .srl rb n => [pack 0x61#8 (lessOne n) (nibble rb)]
  | .sra rb n => [pack 0x62#8 (lessOne n) (nibble rb)]
  | .slc rb n => [pack 0x63#8 (lessOne n) (nibble rb)]
  | .dsll rb n => [pack 0x65#8 (lessOne n) (nibble rb)]
  | .dsrl rb n => [pack 0x66#8 (lessOne n) (nibble rb)]
  | .dsra rb n => [pack 0x67#8 (lessOne n) (nibble rb)]
  | .dslc rb n => [pack 0x68#8 (lessOne n) (nibble rb)]
  | .slr ra rb => [pack 0x6A#8 (nibble ra) (nibble rb)]
  | .sar ra rb => [pack 0x6B#8 (nibble ra) (nibble rb)]
  | .scr ra rb => [pack 0x6C#8 (nibble ra) (nibble rb)]
  | .dslr ra rb => [pack 0x6D#8 (nibble ra) (nibble rb)]
  | .dsar ra rb => [pack 0x6E#8 (nibble ra) (nibble rb)]
  | .dscr ra rb => [pack 0x6F#8 (nibble ra) (nibble rb)]
  | .jc c rx addr => [pack 0x70#8 c (nibble rx), addr]
  | .jci c rx addr => [pack 0x71#8 c (nibble rx), addr]
  | .js ra rx addr => [pack 0x72#8 (nibble ra) (nibble rx), addr]
  | .soj ra rx addr => [pack 0x73#8 (nibble ra) (nibble rx), addr]
  | .br d => [packByte 0x74#8 d]
  | .bez d => [packByte 0x75#8 d]
  | .blt d => [packByte 0x76#8 d]
  | .ble d => [packByte 0x78#8 d]
  | .bgt d => [packByte 0x79#8 d]
  | .bnz d => [packByte 0x7A#8 d]
  | .bge d => [packByte 0x7B#8 d]
  | .bex n => [pack 0x77#8 0#4 (nibble n)]
  | .lsti rx addr => [pack 0x7C#8 0#4 (nibble rx), addr]
  | .lst rx addr => [pack 0x7D#8 0#4 (nibble rx), addr]
  | .sjs ra rx addr => [pack 0x7E#8 (nibble ra) (nibble rx), addr]
  | .urs ra => [pack 0x7F#8 (nibble ra) 0#4]
  | .l ra rx addr => [pack 0x80#8 (nibble ra) (nibble rx), addr]
  | .lr ra rb => [pack 0x81#8 (nibble ra) (nibble rb)]
  | .lisp ra n => [pack 0x82#8 (nibble ra) (lessOne n)]
  | .lisn ra n => [pack 0x83#8 (nibble ra) (lessOne n)]
  | .li ra rx addr => [pack 0x84#8 (nibble ra) (nibble rx), addr]
  | .lim ra rx addr => [pack 0x85#8 (nibble ra) (nibble rx), addr]
  | .dl ra rx addr => [pack 0x86#8 (nibble ra) (nibble rx), addr]
  | .dlr ra rb => [pack 0x87#8 (nibble ra) (nibble rb)]
  | .dli ra rx addr => [pack 0x88#8 (nibble ra) (nibble rx), addr]
  | .lm n rx addr => [pack 0x89#8 (nibble n) (nibble rx), addr]
  | .efl ra rx addr => [pack 0x8A#8 (nibble ra) (nibble rx), addr]
  | .lub ra rx addr => [pack 0x8B#8 (nibble ra) (nibble rx), addr]
  | .llb ra rx addr => [pack 0x8C#8 (nibble ra) (nibble rx), addr]
  | .lubi ra rx addr => [pack 0x8D#8 (nibble ra) (nibble rx), addr]
  | .llbi ra rx addr => [pack 0x8E#8 (nibble ra) (nibble rx), addr]
  | .popm ra rb => [pack 0x8F#8 (nibble ra) (nibble rb)]
  | .lb br dspl => [packBase 0x00#6 br dspl]
  | .dlb br dspl => [packBase 0x01#6 br dspl]
  | .lbx br rx => [packIndexed 0x0#4 br rx]
  | .dlbx br rx => [packIndexed 0x1#4 br rx]
  | .st ra rx addr => [pack 0x90#8 (nibble ra) (nibble rx), addr]
  | .stc n rx addr => [pack 0x91#8 (nibble n) (nibble rx), addr]
  | .stci n rx addr => [pack 0x92#8 (nibble n) (nibble rx), addr]
  | .mov ra rb => [pack 0x93#8 (nibble ra) (nibble rb)]
  | .sti ra rx addr => [pack 0x94#8 (nibble ra) (nibble rx), addr]
  | .dst ra rx addr => [pack 0x96#8 (nibble ra) (nibble rx), addr]
  | .srm ra rx addr => [pack 0x97#8 (nibble ra) (nibble rx), addr]
  | .dsti ra rx addr => [pack 0x98#8 (nibble ra) (nibble rx), addr]
  | .stm n rx addr => [pack 0x99#8 (nibble n) (nibble rx), addr]
  | .efst ra rx addr => [pack 0x9A#8 (nibble ra) (nibble rx), addr]
  | .stub ra rx addr => [pack 0x9B#8 (nibble ra) (nibble rx), addr]
  | .stlb ra rx addr => [pack 0x9C#8 (nibble ra) (nibble rx), addr]
  | .subi ra rx addr => [pack 0x9D#8 (nibble ra) (nibble rx), addr]
  | .slbi ra rx addr => [pack 0x9E#8 (nibble ra) (nibble rx), addr]
  | .pshm ra rb => [pack 0x9F#8 (nibble ra) (nibble rb)]
  | .stb br dspl => [packBase 0x02#6 br dspl]
  | .dstb br dspl => [packBase 0x03#6 br dspl]
  | .stbx br rx => [packIndexed 0x2#4 br rx]
  | .dstx br rx => [packIndexed 0x3#4 br rx]
  | .a ra rx addr => [pack 0xA0#8 (nibble ra) (nibble rx), addr]
  | .ar ra rb => [pack 0xA1#8 (nibble ra) (nibble rb)]
  | .aisp ra n => [pack 0xA2#8 (nibble ra) (lessOne n)]
  | .incm n rx addr => [pack 0xA3#8 (lessOne n) (nibble rx), addr]
  | .abs ra rb => [pack 0xA4#8 (nibble ra) (nibble rb)]
  | .dabs ra rb => [pack 0xA5#8 (nibble ra) (nibble rb)]
  | .da ra rx addr => [pack 0xA6#8 (nibble ra) (nibble rx), addr]
  | .dar ra rb => [pack 0xA7#8 (nibble ra) (nibble rb)]
  | .ab br dspl => [packBase 0x04#6 br dspl]
  | .abx br rx => [packIndexed 0x4#4 br rx]
  | .aim ra data => [pack 0x4A#8 (nibble ra) 0x1#4, data]
  | .s ra rx addr => [pack 0xB0#8 (nibble ra) (nibble rx), addr]
  | .sr ra rb => [pack 0xB1#8 (nibble ra) (nibble rb)]
  | .sisp ra n => [pack 0xB2#8 (nibble ra) (lessOne n)]
  | .decm n rx addr => [pack 0xB3#8 (lessOne n) (nibble rx), addr]
  | .neg ra rb => [pack 0xB4#8 (nibble ra) (nibble rb)]
  | .dneg ra rb => [pack 0xB5#8 (nibble ra) (nibble rb)]
  | .ds ra rx addr => [pack 0xB6#8 (nibble ra) (nibble rx), addr]
  | .dsr ra rb => [pack 0xB7#8 (nibble ra) (nibble rb)]
  | .sbb br dspl => [packBase 0x05#6 br dspl]
  | .sbbx br rx => [packIndexed 0x5#4 br rx]
  | .sim ra data => [pack 0x4A#8 (nibble ra) 0x2#4, data]
  | .ms ra rx addr => [pack 0xC0#8 (nibble ra) (nibble rx), addr]
  | .msr ra rb => [pack 0xC1#8 (nibble ra) (nibble rb)]
  | .misp ra n => [pack 0xC2#8 (nibble ra) (lessOne n)]
  | .misn ra n => [pack 0xC3#8 (nibble ra) (lessOne n)]
  | .m ra rx addr => [pack 0xC4#8 (nibble ra) (nibble rx), addr]
  | .mr ra rb => [pack 0xC5#8 (nibble ra) (nibble rb)]
  | .dm ra rx addr => [pack 0xC6#8 (nibble ra) (nibble rx), addr]
  | .dmr ra rb => [pack 0xC7#8 (nibble ra) (nibble rb)]
  | .mb br dspl => [packBase 0x06#6 br dspl]
  | .mbx br rx => [packIndexed 0x6#4 br rx]
  | .mim ra data => [pack 0x4A#8 (nibble ra) 0x3#4, data]
  | .msim ra data => [pack 0x4A#8 (nibble ra) 0x4#4, data]
  | .dv ra rx addr => [pack 0xD0#8 (nibble ra) (nibble rx), addr]
  | .dvr ra rb => [pack 0xD1#8 (nibble ra) (nibble rb)]
  | .disp ra n => [pack 0xD2#8 (nibble ra) (lessOne n)]
  | .disn ra n => [pack 0xD3#8 (nibble ra) (lessOne n)]
  | .d ra rx addr => [pack 0xD4#8 (nibble ra) (nibble rx), addr]
  | .dr ra rb => [pack 0xD5#8 (nibble ra) (nibble rb)]
  | .dd ra rx addr => [pack 0xD6#8 (nibble ra) (nibble rx), addr]
  | .ddr ra rb => [pack 0xD7#8 (nibble ra) (nibble rb)]
  | .db br dspl => [packBase 0x07#6 br dspl]
  | .dbx br rx => [packIndexed 0x7#4 br rx]
  | .dim ra data => [pack 0x4A#8 (nibble ra) 0x5#4, data]
  | .dvim ra data => [pack 0x4A#8 (nibble ra) 0x6#4, data]
  | .far ra rb => [pack 0xA9#8 (nibble ra) (nibble rb)]
  | .fab br dspl => [packBase 0x08#6 br dspl]
  | .fabx br rx => [packIndexed 0x8#4 br rx]
  | .fa ra rx addr => [pack 0xA8#8 (nibble ra) (nibble rx), addr]
  | .efar ra rb => [pack 0xAB#8 (nibble ra) (nibble rb)]
  | .efa ra rx addr => [pack 0xAA#8 (nibble ra) (nibble rx), addr]
  | .fabs ra rb => [pack 0xAC#8 (nibble ra) (nibble rb)]
  | .fsr ra rb => [pack 0xB9#8 (nibble ra) (nibble rb)]
  | .fsb br dspl => [packBase 0x09#6 br dspl]
  | .fsbx br rx => [packIndexed 0x9#4 br rx]
  | .fs ra rx addr => [pack 0xB8#8 (nibble ra) (nibble rx), addr]
  | .efsr ra rb => [pack 0xBB#8 (nibble ra) (nibble rb)]
  | .efs ra rx addr => [pack 0xBA#8 (nibble ra) (nibble rx), addr]
  | .fneg ra rb => [pack 0xBC#8 (nibble ra) (nibble rb)]
  | .fmr ra rb => [pack 0xC9#8 (nibble ra) (nibble rb)]
  | .fmb br dspl => [packBase 0x0A#6 br dspl]
  | .fmbx br rx => [packIndexed 0xA#4 br rx]
  | .fm ra rx addr => [pack 0xC8#8 (nibble ra) (nibble rx), addr]
  | .efmr ra rb => [pack 0xCB#8 (nibble ra) (nibble rb)]
  | .efm ra rx addr => [pack 0xCA#8 (nibble ra) (nibble rx), addr]
  | .fdr ra rb => [pack 0xD9#8 (nibble ra) (nibble rb)]
  | .fdb br dspl => [packBase 0x0B#6 br dspl]
  | .fdbx br rx => [packIndexed 0xB#4 br rx]
  | .fd ra rx addr => [pack 0xD8#8 (nibble ra) (nibble rx), addr]
  | .efdr ra rb => [pack 0xDB#8 (nibble ra) (nibble rb)]
  | .efd ra rx addr => [pack 0xDA#8 (nibble ra) (nibble rx), addr]
  | .fix ra rb => [pack 0xE8#8 (nibble ra) (nibble rb)]
  | .flt ra rb => [pack 0xE9#8 (nibble ra) (nibble rb)]
  | .efix ra rb => [pack 0xEA#8 (nibble ra) (nibble rb)]
  | .eflt ra rb => [pack 0xEB#8 (nibble ra) (nibble rb)]
  | .fcr ra rb => [pack 0xF9#8 (nibble ra) (nibble rb)]
  | .fcb br dspl => [packBase 0x0F#6 br dspl]
  | .fcbx br rx => [packIndexed 0xD#4 br rx]
  | .fc ra rx addr => [pack 0xF8#8 (nibble ra) (nibble rx), addr]
  | .efcr ra rb => [pack 0xFB#8 (nibble ra) (nibble rb)]
  | .efc ra rx addr => [pack 0xFA#8 (nibble ra) (nibble rx), addr]
  | .or ra rx addr => [pack 0xE0#8 (nibble ra) (nibble rx), addr]
  | .orr ra rb => [pack 0xE1#8 (nibble ra) (nibble rb)]
  | .and ra rx addr => [pack 0xE2#8 (nibble ra) (nibble rx), addr]
  | .andr ra rb => [pack 0xE3#8 (nibble ra) (nibble rb)]
  | .xor ra rx addr => [pack 0xE4#8 (nibble ra) (nibble rx), addr]
  | .xorr ra rb => [pack 0xE5#8 (nibble ra) (nibble rb)]
  | .n ra rx addr => [pack 0xE6#8 (nibble ra) (nibble rx), addr]
  | .nr ra rb => [pack 0xE7#8 (nibble ra) (nibble rb)]
  | .xbr ra => [pack 0xEC#8 (nibble ra) 0#4]
  | .xwr ra rb => [pack 0xED#8 (nibble ra) (nibble rb)]
  | .orb br dspl => [packBase 0x0C#6 br dspl]
  | .andb br dspl => [packBase 0x0D#6 br dspl]
  | .cb br dspl => [packBase 0x0E#6 br dspl]
  | .cbx br rx => [packIndexed 0xC#4 br rx]
  | .andx br rx => [packIndexed 0xE#4 br rx]
  | .orbx br rx => [packIndexed 0xF#4 br rx]
  | .andm ra data => [pack 0x4A#8 (nibble ra) 0x7#4, data]
  | .orim ra data => [pack 0x4A#8 (nibble ra) 0x8#4, data]
  | .xorm ra data => [pack 0x4A#8 (nibble ra) 0x9#4, data]
  | .cim ra data => [pack 0x4A#8 (nibble ra) 0xA#4, data]
  | .nim ra data => [pack 0x4A#8 (nibble ra) 0xB#4, data]
  | .c ra rx addr => [pack 0xF0#8 (nibble ra) (nibble rx), addr]
  | .cr ra rb => [pack 0xF1#8 (nibble ra) (nibble rb)]
  | .cisp ra n => [pack 0xF2#8 (nibble ra) (lessOne n)]
  | .cisn ra n => [pack 0xF3#8 (nibble ra) (lessOne n)]
  | .cbl ra rx addr => [pack 0xF4#8 (nibble ra) (nibble rx), addr]
  | .dc ra rx addr => [pack 0xF6#8 (nibble ra) (nibble rx), addr]
  | .dcr ra rb => [pack 0xF7#8 (nibble ra) (nibble rb)]
  | .nop => [0xFF00#16]
  | .bpt => [0xFFFF#16]
  | .bif opex => [packByte 0x4F#8 opex]

end Sys2Proof
end

