-- ==== Sys2Proof/Machine/Fetch.lean ====
section
/-! DEFINITION. Fetching and decoding the instruction at IC (30_encoding R259, R260; 20_memory R206, R222; 60_exceptions
R790). -/

namespace Sys2Proof.Machine

/-- `IC <- trunc_16(IC + k)` (10_state R137, R138). -/
def advance (k : Nat) (s : State) : State := { s with ic := s.ic + BitVec.ofNat 16 k }

/-- Read the word at IC as an instruction reference and move IC past it; a fault leaves IC past it too (20_memory R206,
R222). -/
def fetchNow (s : State) : Except Out (Word × State) :=
  match readNow (fetchAccess s) s.ic (advance 1 s) with
  | .error e => .error (.next e)
  | .ok w => .ok (w, advance 1 s)

/-- A turn of the environment, then the next word of the instruction. -/
def fetchNext (s : State) : Except Out (Word × State) :=
  match takeTurn s with
  | .error o => .error o
  | .ok u => fetchNow u

/-- The next `k` words of the instruction (49_logic_compare_misc R745). -/
def fetchWords : Nat → State → Except Out (List Word × State)
  | 0, s => .ok ([], s)
  | k + 1, s =>
    match fetchNext s with
    | .error o => .error o
    | .ok (w, s1) =>
      match fetchWords k s1 with
      | .error o => .error o
      | .ok (ws, s2) => .ok (w :: ws, s2)

/-- The instruction that the words `w0` and `w1` give, or the illegal instruction fault with IC past `w0` alone: an undefined
first word has length one (60_exceptions R790, decision D16). -/
def decoded (w0 w1 : Word) (ic : Word) (s : State) : Except Out (Instr × State) :=
  match decode w0 w1 with
  | .error _ => .error (.next (raiseFault 9 { s with ic := ic }))
  | .ok i => .ok (i, s)

/-- Fetch the instruction at IC: the instruction, with IC past it; or how the step ends without one: in the state a faulting
fetch of word k leaves (IC = IC0 + k + 1, 20_memory R222), or with an illegal instruction. -/
def fetch (s : State) : Except Out (Instr × State) :=
  match fetchNow s with
  | .error o => .error o
  | .ok (w0, s1) =>
    match lengthOf w0 with
    | 2 =>
      match fetchNext s1 with
      | .error o => .error o
      | .ok (w1, s2) => decoded w0 w1 s1.ic s2
    | _ => decoded w0 0x0000#16 s1.ic s1

/-- Put a word where an instruction fetch of a logical address reads it: the start-up ROM where it overlays, else main
memory. -/
def placeFetchWord (logical w : Word) (s : State) : State :=
  let p := translate s (fetchAccess s) logical
  match romWord s p, s.cfg.rom with
  | some _, some rom => { s with cfg := { s.cfg with rom := some (rom.set p.toNat w) } }
  | _, _ => physWrite s p w

end Sys2Proof.Machine
end

