-- ==== Sys2Proof/Machine/Load.lean ====
section
/-! DEFINITION. Load instructions (44_load). -/

namespace Sys2Proof.Machine

/-- Leave a word in a register and set CS from it (44_load R480). -/
def putWord (ra : Reg) (v : Word) (s : State) : State := setCS (csSign v) (s.setReg ra v)

/-- Leave a double word in a register pair and set CS from it (44_load R480). -/
def putPair (ra : Reg) (v : DWord) (s : State) : State := setCS (csSign v) (s.setPair ra v)

/-- Leave a triple word in three registers and set CS from it (44_load R480). -/
def putTriple (ra : Reg) (v : TWord) (s : State) : State := setCS (csSign v) (s.setTriple ra v)

/-- Load the word at `a` (44_load R486). -/
def loadWordTo (ra : Reg) (a : Word) (s : State) : Out := withWord a s fun d s => .next (putWord ra d s)

/-- Load the double word at `a` (44_load R492). -/
def loadPairTo (ra : Reg) (a : Word) (s : State) : Out := withDouble a s fun d s => .next (putPair ra d s)

/-- The upper byte of a word (20_memory R201). -/
def upperByte (x : Word) : Byte := x.extractLsb' 8 8

/-- The lower byte of a word (20_memory R201). -/
def lowerByte (x : Word) : Byte := x.extractLsb' 0 8

/-- Put a byte into the lower half of RA, whose upper half stays; CS from the whole of RA (44_load R496, R498). -/
def putLowerByte (ra : Reg) (b : Byte) (s : State) : State := putWord ra (upperByte (s.reg ra) ++ b) s

/-- LR (44_load R481). -/
def execLr (ra rb : Reg) (s : State) : Out := .next (putWord ra (s.reg rb) s)

/-- LB (44_load R482). -/
def execLb (br : Reg) (dspl : Byte) (s : State) : Out := loadWordTo 2 (daBase br dspl s) s

/-- LBX (44_load R483). -/
def execLbx (br rx : Reg) (s : State) : Out := loadWordTo 2 (daBaseIndexed br rx s) s

/-- LISP (44_load R484). -/
def execLisp (ra : Reg) (n : Nat) (s : State) : Out := .next (putWord ra (shortPositive n) s)

/-- LISN (44_load R485). -/
def execLisn (ra : Reg) (n : Nat) (s : State) : Out := .next (putWord ra (shortNegative n) s)

/-- L (44_load R486). -/
def execL (ra rx : Reg) (addr : Word) (s : State) : Out := loadWordTo ra (daLong rx addr s) s

/-- LIM (44_load R487). -/
def execLim (ra rx : Reg) (addr : Word) (s : State) : Out := .next (putWord ra (daLong rx addr s) s)

/-- LI (44_load R488). -/
def execLi (ra rx : Reg) (addr : Word) (s : State) : Out :=
  withPointer rx addr s fun a s => loadWordTo ra a s

/-- DLR: the source pair is read whole first (44_load R489). -/
def execDlr (ra rb : Reg) (s : State) : Out := .next (putPair ra (s.pair rb) s)

/-- DLB (44_load R490). -/
def execDlb (br : Reg) (dspl : Byte) (s : State) : Out := loadPairTo 0 (daBase br dspl s) s

/-- DLBX (44_load R491). -/
def execDlbx (br rx : Reg) (s : State) : Out := loadPairTo 0 (daBaseIndexed br rx s) s

/-- DL (44_load R492). -/
def execDl (ra rx : Reg) (addr : Word) (s : State) : Out := loadPairTo ra (daLong rx addr s) s

/-- DLI (44_load R493). -/
def execDli (ra rx : Reg) (addr : Word) (s : State) : Out :=
  withPointer rx addr s fun a s => loadPairTo ra a s

/-- Load `k` registers from register `r` on from ascending addresses; a fault abandons the instruction with the earlier
registers loaded (44_load R494). -/
def loadRegs : Nat → Reg → Word → State → Except Out State
  | 0, _, _, s => .ok s
  | k + 1, r, a, s =>
    match load a s with
    | .error o => .error o
    | .ok (v, s') => loadRegs k (r + 1) (a + 1) (s'.setReg r v)

/-- LM: N + 1 registers from R0 on (44_load R494). -/
def execLm (n : Fin 16) (rx : Reg) (addr : Word) (s : State) : Out :=
  andThen (loadRegs (n.val + 1) 0 (daLong rx addr s) s) .next

/-- EFL (44_load R495). -/
def execEfl (ra rx : Reg) (addr : Word) (s : State) : Out :=
  withTriple (daLong rx addr s) s fun d s => .next (putTriple ra d s)

/-- Load the upper byte of the word at `a` (44_load R496). -/
def loadUpperTo (ra : Reg) (a : Word) (s : State) : Out :=
  withWord a s fun t s => .next (putLowerByte ra (upperByte t) s)

/-- Load the lower byte of the word at `a` (44_load R498). -/
def loadLowerTo (ra : Reg) (a : Word) (s : State) : Out :=
  withWord a s fun t s => .next (putLowerByte ra (lowerByte t) s)

/-- LUB (44_load R496). -/
def execLub (ra rx : Reg) (addr : Word) (s : State) : Out := loadUpperTo ra (daLong rx addr s) s

/-- LUBI (44_load R497). -/
def execLubi (ra rx : Reg) (addr : Word) (s : State) : Out :=
  withPointer rx addr s fun a s => loadUpperTo ra a s

/-- LLB (44_load R498). -/
def execLlb (ra rx : Reg) (addr : Word) (s : State) : Out := loadLowerTo ra (daLong rx addr s) s

/-- LLBI (44_load R499). -/
def execLlbi (ra rx : Reg) (addr : Word) (s : State) : Out :=
  withPointer rx addr s fun a s => loadLowerTo ra a s

/-- How many registers PSHM and POPM transfer: `((RB - RA) mod 16) + 1` (44_load R500, 45_store R540). -/
def rangeCount (ra rb : Reg) : Nat := (rb - ra).val + 1

/-- Pop `k` registers from register `r` on; the slot of R15 is passed over without a reference (44_load R500). -/
def popRegs : Nat → Reg → State → Except Out State
  | 0, _, s => .ok s
  | k + 1, r, s =>
    if r = 15 then popRegs k (r + 1) (s.setReg 15 (s.reg 15 + 1))
    else
      match load (s.reg 15) s with
      | .error o => .error o
      | .ok (v, s') => popRegs k (r + 1) ((s'.setReg r v).setReg 15 (s'.reg 15 + 1))

/-- POPM (44_load R500). -/
def execPopm (ra rb : Reg) (s : State) : Out := andThen (popRegs (rangeCount ra rb) ra s) .next

end Sys2Proof.Machine
end

