-- ==== Sys2Proof/Machine/Logic.lean ====
section
/-! DEFINITION. Logical, exchange, compare and miscellaneous instructions (49_logic_compare_misc). -/

namespace Sys2Proof.Machine

/-- `R[RA] <- R[RA] OR d` and CS (49_logic_compare_misc R700). -/
def orTo (ra : Reg) (d : Word) (s : State) : State := putWord ra (s.reg ra ||| d) s

/-- `R[RA] <- R[RA] AND d` and CS. -/
def andTo (ra : Reg) (d : Word) (s : State) : State := putWord ra (s.reg ra &&& d) s

/-- `R[RA] <- R[RA] XOR d` and CS. -/
def xorTo (ra : Reg) (d : Word) (s : State) : State := putWord ra (s.reg ra ^^^ d) s

/-- `R[RA] <- NOT (R[RA] AND d)` and CS. -/
def nandTo (ra : Reg) (d : Word) (s : State) : State := putWord ra (~~~(s.reg ra &&& d)) s

/-- Compare RA with `d` as signed integers (49_logic_compare_misc, single precision compare). -/
def compareWith (ra : Reg) (d : Word) (s : State) : State := setCS (csCompare (s.reg ra).toInt d.toInt) s

/-- Compare RA, RA+1 with `d` (49_logic_compare_misc, double precision compare). -/
def compareWith2 (ra : Reg) (d : DWord) (s : State) : State := setCS (csCompare (s.pair ra).toInt d.toInt) s

/-- ORR (49_logic_compare_misc R701). -/
def execOrr (ra rb : Reg) (s : State) : Out := .next (orTo ra (s.reg rb) s)

/-- ORB (49_logic_compare_misc R702). -/
def execOrb (br : Reg) (dspl : Byte) (s : State) : Out := withWord (daBase br dspl s) s fun d s => .next (orTo 2 d s)

/-- ORBX (49_logic_compare_misc R703). -/
def execOrbx (br rx : Reg) (s : State) : Out := withWord (daBaseIndexed br rx s) s fun d s => .next (orTo 2 d s)

/-- OR (49_logic_compare_misc R704). -/
def execOr (ra rx : Reg) (addr : Word) (s : State) : Out :=
  withWord (daLong rx addr s) s fun d s => .next (orTo ra d s)

/-- ORIM (49_logic_compare_misc R705). -/
def execOrim (ra : Reg) (data : Word) (s : State) : Out := .next (orTo ra data s)

/-- ANDR (49_logic_compare_misc R706). -/
def execAndr (ra rb : Reg) (s : State) : Out := .next (andTo ra (s.reg rb) s)

/-- ANDB (49_logic_compare_misc R707). -/
def execAndb (br : Reg) (dspl : Byte) (s : State) : Out := withWord (daBase br dspl s) s fun d s => .next (andTo 2 d s)

/-- ANDX (49_logic_compare_misc R708). -/
def execAndx (br rx : Reg) (s : State) : Out := withWord (daBaseIndexed br rx s) s fun d s => .next (andTo 2 d s)

/-- AND (49_logic_compare_misc R709). -/
def execAnd (ra rx : Reg) (addr : Word) (s : State) : Out :=
  withWord (daLong rx addr s) s fun d s => .next (andTo ra d s)

/-- ANDM (49_logic_compare_misc R710). -/
def execAndm (ra : Reg) (data : Word) (s : State) : Out := .next (andTo ra data s)

/-- XORR (49_logic_compare_misc R711). -/
def execXorr (ra rb : Reg) (s : State) : Out := .next (xorTo ra (s.reg rb) s)

/-- XOR (49_logic_compare_misc R712). -/
def execXor (ra rx : Reg) (addr : Word) (s : State) : Out :=
  withWord (daLong rx addr s) s fun d s => .next (xorTo ra d s)

/-- XORM (49_logic_compare_misc R713). -/
def execXorm (ra : Reg) (data : Word) (s : State) : Out := .next (xorTo ra data s)

/-- NR (49_logic_compare_misc R714). -/
def execNr (ra rb : Reg) (s : State) : Out := .next (nandTo ra (s.reg rb) s)

/-- N (49_logic_compare_misc R715). -/
def execN (ra rx : Reg) (addr : Word) (s : State) : Out :=
  withWord (daLong rx addr s) s fun d s => .next (nandTo ra d s)

/-- NIM (49_logic_compare_misc R716). -/
def execNim (ra : Reg) (data : Word) (s : State) : Out := .next (nandTo ra data s)

/-- XBR (49_logic_compare_misc R720). -/
def execXbr (ra : Reg) (s : State) : Out := .next (putWord ra (lowerByte (s.reg ra) ++ upperByte (s.reg ra)) s)

/-- XWR: CS from the new RA (49_logic_compare_misc R721). -/
def execXwr (ra rb : Reg) (s : State) : Out :=
  .next (setCS (csSign (s.reg rb)) ((s.setReg ra (s.reg rb)).setReg rb (s.reg ra)))

/-- CR (49_logic_compare_misc R722). -/
def execCr (ra rb : Reg) (s : State) : Out := .next (compareWith ra (s.reg rb) s)

/-- CB (49_logic_compare_misc R723). -/
def execCb (br : Reg) (dspl : Byte) (s : State) : Out := withWord (daBase br dspl s) s fun d s => .next (compareWith 2 d s)

/-- CBX (49_logic_compare_misc R724). -/
def execCbx (br rx : Reg) (s : State) : Out := withWord (daBaseIndexed br rx s) s fun d s => .next (compareWith 2 d s)

/-- CISP (49_logic_compare_misc R725). -/
def execCisp (ra : Reg) (n : Nat) (s : State) : Out := .next (compareWith ra (shortPositive n) s)

/-- CISN (49_logic_compare_misc R726). -/
def execCisn (ra : Reg) (n : Nat) (s : State) : Out := .next (compareWith ra (shortNegative n) s)

/-- C (49_logic_compare_misc R727). -/
def execC (ra rx : Reg) (addr : Word) (s : State) : Out :=
  withWord (daLong rx addr s) s fun d s => .next (compareWith ra d s)

/-- CIM (49_logic_compare_misc R728). -/
def execCim (ra : Reg) (data : Word) (s : State) : Out := .next (compareWith ra data s)

/-- CBL: both limits are read (49_logic_compare_misc R735). -/
def execCbl (ra rx : Reg) (addr : Word) (s : State) : Out :=
  withWord (daLong rx addr s) s fun lo s =>
    withWord (daLong rx addr s + 1) s fun hi s =>
      .next (setCS (csLimits (s.reg ra).toInt lo.toInt hi.toInt) s)

/-- DCR (49_logic_compare_misc R736). -/
def execDcr (ra rb : Reg) (s : State) : Out := .next (compareWith2 ra (s.pair rb) s)

/-- DC (49_logic_compare_misc R737). -/
def execDc (ra rx : Reg) (addr : Word) (s : State) : Out :=
  withDouble (daLong rx addr s) s fun d s => .next (compareWith2 ra d s)

/-- NOP (49_logic_compare_misc R743). -/
def execNop (s : State) : Out := .next s

/-- Whether a console is connected: never without the console interface (00_scope R109, log 21). -/
def consolePresent (s : State) : Bool := s.cfg.console && s.console.connected

/-- BPT: halts when a console is connected, else a NOP (49_logic_compare_misc R744). -/
def execBpt (s : State) : Out := .next (if consolePresent s then { s with halted := true } else s)

/-- The page file with its fields that do not exist at zero (20_memory R208, R209). -/
def storedPages (c : Config) (p : Vector PageGroup 16) : Vector PageGroup 16 :=
  p.map fun g => { instr := g.instr.map (pageWord c), oper := g.oper.map (pageWord c) }

/-- The state `t` that a user defined function gave in the state `s`, in the form the machine holds it: memory in canonical
form, page register fields and FT bits that do not exist zero; and what is not the machine's own as it was: the parameters,
the schedule, the parity errors, whether a console is connected, the count of free values (log 14). -/
def userResult (s t : State) : State :=
  { t with
    mem := Memory.ofImage t.mem
    pages := storedPages s.cfg t.pages
    ft := t.ft &&& s.cfg.ftImplemented
    console := { t.console with connected := s.console.connected }
    cfg := s.cfg
    env := s.env
    parityBad := s.parityBad
    draws := s.draws }

/-- BIF: the function that the platform implements under this Op.Ex., applied to its further instruction words and the state
with IC past them; an illegal instruction when it implements none (49_logic_compare_misc R745, log 14). -/
def execBif (opex : Byte) (s : State) : Out :=
  match s.cfg.bifSet.lookup opex with
  | none => .next (raiseFault 9 s)
  | some k => andThen (fetchWords k s) fun r => .next (userResult r.2 (Config.userFunction opex r.1 r.2))

end Sys2Proof.Machine
end

