-- ==== Sys2Proof/Machine/Io.lean ====
section
/-! DEFINITION. The I/O commands, XIO and VIO (40_io). -/

namespace Sys2Proof.Machine

/-! ## The command word (40_io R301 to R304) -/

/-- Output commands: data goes from the CPU (40_io R310 to R317, R340 to R359, R373). -/
inductive OutCommand where
  | po (c : Word)
  | smk
  | clir
  | enbl
  | dsbl
  | rpi
  | spi
  | wsw
  | od
  | rns
  | co
  | clc
  | mpen
  | esur
  | dsur
  | dmae
  | dmad
  | tas
  | tah
  | ota
  | go
  | tbs
  | tbh
  | otb
  | lmp (n : BitVec 7)
  | wipr (x y : BitVec 4)
  | wopr (x y : BitVec 4)
  | spareOut (c : Word)
deriving DecidableEq, Repr

/-- Input commands: data comes to the CPU (40_io R318 to R322, R360 to R373). -/
inductive InCommand where
  | pi (c : Word)
  | rmk
  | rpir
  | rsw
  | rcfr
  | ric1
  | ric2
  | rdor
  | rdi
  | tpio
  | rmfs
  | ci
  | rcs
  | ita
  | itb
  | rmp (n : BitVec 7)
  | ripr (x y : BitVec 4)
  | ropr (x y : BitVec 4)
  | spareIn (c : Word)
deriving DecidableEq, Repr

/-- A command of either direction. -/
inductive IoCommand where
  | out (o : OutCommand)
  | inp (i : InCommand)
deriving DecidableEq, Repr

/-- An optional command exists when its option does (40_io R303). -/
def whenOption (b : Bool) (c : IoCommand) : Option IoCommand := if b then some c else none

/-- The channel group byte of a command word and the seven bits without the direction. -/
def commandGroup (c : Word) : Nat := (c.extractLsb' 8 8).toNat

/-- The command within its group. -/
def commandLow (c : Word) : Nat := (c.extractLsb' 0 8).toNat

/-- The fields X and Y of a page register command (40_io R352). -/
def commandX (c : Word) : BitVec 4 := c.extractLsb' 4 4

/-- The field Y. -/
def commandY (c : Word) : BitVec 4 := c.extractLsb' 0 4

/-- Whether a command word lies in a Spare group of 40_io R302. -/
def spareGroup (c : Word) : Bool :=
  let g := commandGroup c % 128
  (decide (0x04 ≤ g) && decide (g ≤ 0x1F)) || (decide (0x30 ≤ g) && decide (g ≤ 0x3F)) || decide (0x53 ≤ g)

/-- A spare command exists when the application implements it (40_io R373). -/
def spareCommand (k : Config) (c : Word) (i : IoCommand) : Option IoCommand :=
  whenOption (spareGroup c && k.spareXio.contains c) i

/-- A page register command exists for an implemented group (40_io R354, decision D19). -/
def pageCommand (k : Config) (c : Word) (i : IoCommand) : Option IoCommand :=
  whenOption (k.expanded.isSome && groupImplemented k (commandX c)) i

/-- A memory protect RAM command exists for its 128 words (40_io R304). -/
def mprotCommand (k : Config) (c : Word) (i : IoCommand) : Option IoCommand :=
  whenOption (k.memProtectRam && decide (commandLow c < 128)) i

/-- The commands of group 20 (40_io R311 to R317, R340, R341). -/
def decodeGroup20 (k : Config) (low : Nat) : Option IoCommand :=
  match low with
  | 0x00 => some (.out .smk)
  | 0x01 => some (.out .clir)
  | 0x02 => some (.out .enbl)
  | 0x03 => some (.out .dsbl)
  | 0x04 => some (.out .rpi)
  | 0x05 => some (.out .spi)
  | 0x08 => whenOption k.discretes (.out .od)
  | 0x0A => whenOption k.npuDiscrete (.out .rns)
  | 0x0E => some (.out .wsw)
  | _ => none

/-- The commands of group A0 (40_io R319 to R322, R360 to R365). -/
def decodeGroupA0 (k : Config) (low : Nat) : Option IoCommand :=
  match low with
  | 0x00 => some (.inp .rmk)
  | 0x01 => whenOption k.ioic (.inp .ric1)
  | 0x02 => whenOption k.ioic (.inp .ric2)
  | 0x04 => some (.inp .rpir)
  | 0x08 => whenOption k.discretes (.inp .rdor)
  | 0x09 => whenOption k.discretes (.inp .rdi)
  | 0x0B => whenOption k.tpio (.inp .tpio)
  | 0x0D => whenOption k.mfsr.isSome (.inp .rmfs)
  | 0x0E => some (.inp .rsw)
  | 0x0F => some (.inp .rcfr)
  | _ => none

/-- The commands of group 40 (40_io R342 to R358). -/
def decodeGroup40 (k : Config) (low : Nat) : Option IoCommand :=
  match low with
  | 0x00 => whenOption k.console (.out .co)
  | 0x01 => whenOption k.console (.out .clc)
  | 0x03 => whenOption k.memProtectRam (.out .mpen)
  | 0x04 => whenOption k.rom.isSome (.out .esur)
  | 0x05 => whenOption k.rom.isSome (.out .dsur)
  | 0x06 => whenOption k.dma (.out .dmae)
  | 0x07 => whenOption k.dma (.out .dmad)
  | 0x08 => whenOption k.timers (.out .tas)
  | 0x09 => whenOption k.timers (.out .tah)
  | 0x0A => whenOption k.timers (.out .ota)
  | 0x0B => whenOption k.go (.out .go)
  | 0x0C => whenOption k.timers (.out .tbs)
  | 0x0D => whenOption k.timers (.out .tbh)
  | 0x0E => whenOption k.timers (.out .otb)
  | _ => none

/-- The commands of group C0 (40_io R366 to R369). -/
def decodeGroupC0 (k : Config) (low : Nat) : Option IoCommand :=
  match low with
  | 0x00 => whenOption k.console (.inp .ci)
  | 0x01 => whenOption k.console (.inp .rcs)
  | 0x0A => whenOption k.timers (.inp .ita)
  | 0x0E => whenOption k.timers (.inp .itb)
  | _ => none

/-- `Legal(c)` and the command it names; none for an illegal command word (40_io R303, R304). -/
def decodeIo (k : Config) (c : Word) : Option IoCommand :=
  match commandGroup c with
  | 0x00 | 0x01 | 0x02 | 0x03 => some (.out (.po c))
  | 0x80 | 0x81 | 0x82 | 0x83 => some (.inp (.pi c))
  | 0x20 => decodeGroup20 k (commandLow c)
  | 0xA0 => decodeGroupA0 k (commandLow c)
  | 0x40 => decodeGroup40 k (commandLow c)
  | 0xC0 => decodeGroupC0 k (commandLow c)
  | 0x50 => mprotCommand k c (.out (.lmp (c.extractLsb' 0 7)))
  | 0xD0 => mprotCommand k c (.inp (.rmp (c.extractLsb' 0 7)))
  | 0x51 => pageCommand k c (.out (.wipr (commandX c) (commandY c)))
  | 0x52 => pageCommand k c (.out (.wopr (commandX c) (commandY c)))
  | 0xD1 => pageCommand k c (.inp (.ripr (commandX c) (commandY c)))
  | 0xD2 => pageCommand k c (.inp (.ropr (commandX c) (commandY c)))
  | _ => spareCommand k c (if c.msb then .inp (.spareIn c) else .out (.spareOut c))

/-! ## Effects of the output commands -/

/-- Write a page register (40_io R352, R353). -/
def writePage (kind : RefKind) (x y : BitVec 4) (w : Word) (s : State) : State :=
  let g := s.pages.get x.toFin
  let v := pageWord s.cfg w
  let g' : PageGroup :=
    match kind with
    | .instr => { g with instr := g.instr.set y.toFin.val v y.toFin.isLt }
    | .oper => { g with oper := g.oper.set y.toFin.val v y.toFin.isLt }
  { s with pages := s.pages.set x.toFin.val g' x.toFin.isLt }

/-- PO: the word goes out, and into the programmed output buffer when TPIO is implemented (40_io R310). -/
def programmedOutput (c w : Word) (s : State) : State :=
  { s with outputs := .pio c w :: s.outputs, pobuf := if s.cfg.tpio then w else s.pobuf }

/-- ENBL: the enable becomes pending; an enable already pending keeps its time (10_state R161, log 12). -/
def enableInterrupts (s : State) : State :=
  if s.enblPending then s else { s with enblPending := true, enblIssued := true }

/-- RPI: clear one pending bit, FT too for interrupt 1 (40_io R315). -/
def resetPending (w : Word) (s : State) : State :=
  let n := bitNumberOf w
  let s' := clearPending n s
  if n = 1 then { s' with ft := 0x0000#16 } else s'

/-- SPI: OR into PI; the bits newly set are held over one boundary (40_io R316, 10_state R162). -/
def setPending (w : Word) (s : State) : State := { s with pi := s.pi ||| w, piHold := w &&& ~~~s.pi }

/-- CO: the two bytes go out, the most significant first, when a console is connected (40_io R342). -/
def consoleOutput (w : Word) (s : State) : State :=
  if consolePresent s then
    { s with outputs := .consoleByte (lowerByte w) :: .consoleByte (upperByte w) :: s.outputs }
  else s

/-- CLC: an event of the console interface, nothing when no console is connected (40_io R343, decision D38). -/
def consoleClear (s : State) : State :=
  if consolePresent s then { s with outputs := .consoleClear :: s.outputs } else s

/-- The effect of an output command with the data word `w` (40_io R310 to R317, R340 to R359, R373). -/
def outputEffect (o : OutCommand) (w : Word) (s : State) : State :=
  match o with
  | .po c => programmedOutput c w s
  | .smk => { s with mask := w }
  | .clir => { s with pi := 0x0000#16, ft := 0x0000#16, piHold := 0x0000#16 }
  | .enbl => enableInterrupts s
  | .dsbl => disableInterrupts s
  | .rpi => resetPending w s
  | .spi => setPending w s
  | .wsw => loadSW w s
  | .od => { s with dout := w }
  | .rns => { s with npu := false }
  | .co => consoleOutput w s
  | .clc => consoleClear s
  | .mpen => { s with mprotEn := true }
  | .esur => { s with romEn := true }
  | .dsur => { s with romEn := false }
  | .dmae => { s with dmaEn := true }
  | .dmad => { s with dmaEn := false }
  | .tas => { s with timers := { s.timers with taRun := true } }
  | .tah => { s with timers := { s.timers with taRun := false } }
  | .ota => { s with timers := { s.timers with ta := w, taRun := true } }
  | .go => { s with goRun := true, outputs := .goRestart :: s.outputs }
  | .tbs => { s with timers := { s.timers with tbRun := true } }
  | .tbh => { s with timers := { s.timers with tbRun := false } }
  | .otb => { s with timers := { s.timers with tb := w, tbRun := true } }
  | .lmp n => { s with mprot := s.mprot.set n.toFin.val w n.toFin.isLt }
  | .wipr x y => writePage .instr x y w s
  | .wopr x y => writePage .oper x y w s
  | .spareOut c => { s with outputs := .spare c w :: s.outputs }

/-! ## Values of the input commands -/

/-- The word an input command delivers and the state after it (40_io R318 to R322, R360 to R373). CI leaves the console's word
in place: a further CI, in a VIO chain too, delivers the same word until the environment supplies another; DESIGN CHOICE,
log 26. -/
def inputEffect (i : InCommand) (s : State) : Word × State :=
  match i with
  | .pi c => drawInput c s
  | .rmk => (s.mask, s)
  | .rpir => (s.pi, s)
  | .rsw => (s.sw, s)
  | .rcfr => (s.ft, clearPending 1 { s with ft := 0x0000#16 })
  | .ric1 => (s.ioic.code1.zeroExtend 16, { s with ioic := { s.ioic with frozen1 := false } })
  | .ric2 => (s.ioic.code2.zeroExtend 16, { s with ioic := { s.ioic with frozen2 := false } })
  | .rdor => (s.dout, s)
  | .rdi => (s.din, s)
  | .tpio => (s.pobuf, s)
  | .rmfs => (s.mfsr, s)
  | .ci => (s.console.data, s)
  | .rcs => (s.console.status, s)
  | .ita => (s.timers.ta, s)
  | .itb => (s.timers.tb, s)
  | .rmp n => (s.mprot.get n.toFin, s)
  | .ripr x y => (pageRegister s .instr x y, s)
  | .ropr x y => (pageRegister s .oper x y, s)
  | .spareIn c => drawInput c s

/-! ## XIO and VIO -/

/-- Perform a command with register RA; an illegal one raises Fault 5 and does nothing else (40_io R300, R305). -/
def performIo (ra : Reg) (c : Word) (s : State) : State :=
  match decodeIo s.cfg c with
  | none => raiseFault 5 s
  | some (.out o) => outputEffect o (s.reg ra) s
  | some (.inp i) => let (v, s') := inputEffect i s; s'.setReg ra v

/-- XIO (40_io R300). -/
def execXio (ra rx : Reg) (addr : Word) (s : State) : Out :=
  privileged s (.next (performIo ra (daLong rx addr s) s))

/-- An input command of VIO: a turn of the environment, the word, then its reference to the data word at `a` (40_io R380). -/
def vioInput (i : InCommand) (a : Word) (s : State) : Except Out State :=
  match takeTurn s with
  | .error o => .error o
  | .ok u => store a (inputEffect i u).1 (inputEffect i u).2

/-- The chain of VIO: for each bit number whose bit of the vector select is one, the command `c0 + n * R[RA]` with the next
data word; an illegal command ends the chain, a memory fault abandons it (40_io R380, decision D37, log 22). -/
def vioChain (c0 vs step : Word) : List BitNo → Word → State → Except Out State
  | [], _, s => .ok s
  | n :: rest, a, s =>
    if bitAt vs n then
      match decodeIo s.cfg (c0 + BitVec.ofNat 16 n.val * step) with
      | none => .error (.next (raiseFault 5 s))
      | some (.out o) =>
        match load a s with
        | .error e => .error e
        | .ok (w, s') => vioChain c0 vs step rest (a + 1) (outputEffect o w s')
      | some (.inp i) =>
        match vioInput i a s with
        | .error e => .error e
        | .ok s' => vioChain c0 vs step rest (a + 1) s'
    else vioChain c0 vs step rest a s

/-- VIO (40_io R380). -/
def execVio (ra rx : Reg) (addr : Word) (s : State) : Out :=
  privileged s
    (withWord (daLong rx addr s) s fun c0 s =>
      withWord (daLong rx addr s + 1) s fun vs s =>
        andThen (vioChain c0 vs (s.reg ra) interruptNumbers (daLong rx addr s + 2) s) .next)

end Sys2Proof.Machine
end

