-- ==== Sys2Proof/Machine/Jump.lean ====
section
/-! DEFINITION. Jumps, branches, the executive call, the load of status, the stacked calls (43_jump_branch). -/

namespace Sys2Proof.Machine

/-- `IC <- a`. -/
def jumpTo (a : Word) (s : State) : State := { s with ic := a }

/-- `JumpCond(C, CS)` (43_jump_branch R450). -/
def jumpCondition (c cs : BitVec 4) : Bool := decide (c = 0x7#4) || decide (c = 0xF#4) || decide (c &&& cs ≠ 0x0#4)

/-- The bits P Z N of CS (43_jump_branch R455). -/
def pzn (s : State) : BitVec 3 := (csOf s.sw).extractLsb' 0 3

/-- A conditional branch: taken when the bits P Z N are one of the patterns (43_jump_branch R455, decision D21). -/
def branchIf (patterns : List (BitVec 3)) (d : Byte) (s : State) : Out :=
  .next (if patterns.contains (pzn s) then jumpTo (daIcRelative d s) s else s)

/-- JC (43_jump_branch R451). -/
def execJc (c : BitVec 4) (rx : Reg) (addr : Word) (s : State) : Out :=
  .next (if jumpCondition c (csOf s.sw) then jumpTo (daLong rx addr s) s else s)

/-- JCI: the pointer word is read whether or not the jump is taken (43_jump_branch R452, decision D22). -/
def execJci (c : BitVec 4) (rx : Reg) (addr : Word) (s : State) : Out :=
  withPointer rx addr s fun a s => .next (if jumpCondition c (csOf s.sw) then jumpTo a s else s)

/-- JS (43_jump_branch R453). -/
def execJs (ra rx : Reg) (addr : Word) (s : State) : Out :=
  .next (jumpTo (daLong rx addr s) (s.setReg ra s.ic))

/-- SOJ (43_jump_branch R454). -/
def execSoj (ra rx : Reg) (addr : Word) (s : State) : Out :=
  let v := s.reg ra - 1
  let s' := setCS (csSign v) (s.setReg ra v)
  .next (if v = 0x0000#16 then s' else jumpTo (daLong rx addr s) s')

/-- BR (43_jump_branch R456). -/
def execBr (d : Byte) (s : State) : Out := .next (jumpTo (daIcRelative d s) s)

/-- BEZ (43_jump_branch R457). -/
def execBez (d : Byte) (s : State) : Out := branchIf [0b010#3] d s

/-- BLT (43_jump_branch R458). -/
def execBlt (d : Byte) (s : State) : Out := branchIf [0b001#3] d s

/-- BLE (43_jump_branch R459). -/
def execBle (d : Byte) (s : State) : Out := branchIf [0b010#3, 0b001#3] d s

/-- BGT (43_jump_branch R460). -/
def execBgt (d : Byte) (s : State) : Out := branchIf [0b100#3] d s

/-- BNZ (43_jump_branch R461). -/
def execBnz (d : Byte) (s : State) : Out := branchIf [0b100#3, 0b001#3] d s

/-- BGE (43_jump_branch R462). -/
def execBge (d : Byte) (s : State) : Out := branchIf [0b100#3, 0b010#3] d s

/-- BEX: takes the executive call, PI bit 5 as it was (43_jump_branch R463, 60_exceptions R774). -/
def execBex (n : Fin 16) (s : State) : Out := takeVector 5 (smallConstant n) (fun t => t) s

/-- LST (43_jump_branch R464). -/
def execLst (rx : Reg) (addr : Word) (s : State) : Out := privileged s (returnFrom (daLong rx addr s) s)

/-- LSTI (43_jump_branch R465). -/
def execLsti (rx : Reg) (addr : Word) (s : State) : Out :=
  privileged s (withPointer rx addr s fun a s => returnFrom a s)

/-- SJS: the stack pointer stays decremented when the store abandons the instruction (43_jump_branch R466). The
environment's turn, which changes no register of the instruction, comes before both. -/
def execSjs (ra rx : Reg) (addr : Word) (s : State) : Out :=
  andThen (takeTurn s) fun s =>
    let sp := s.reg ra - 1
    andThen (storeNow sp s.ic (s.setReg ra sp)) fun s' => .next (jumpTo (daLong rx addr s) s')

/-- URS (43_jump_branch R467). -/
def execUrs (ra : Reg) (s : State) : Out :=
  withWord (s.reg ra) s fun a s => .next ((jumpTo a s).setReg ra (s.reg ra + 1))

end Sys2Proof.Machine
end

