-- ==== Sys2Proof/Machine/MulDiv.lean ====
section
/-! DEFINITION. Integer multiply and divide (47_int_muldiv). -/

namespace Sys2Proof.Machine

/-- The 16-bit product, CS and overflow (47_int_muldiv, section 5.71). -/
def mulSingle (ra : Reg) (d : Word) (s : State) : State :=
  let a := s.reg ra
  let r := BitVec.ofInt 16 (a.toInt * d.toInt)
  raiseIf (mulOverflow a d) fixedOverflow (setCS (csSign r) (s.setReg ra r))

/-- The 32-bit product of two 16-bit numbers: always exact (47_int_muldiv, section 5.72). -/
def mulToPair (ra : Reg) (d : Word) (s : State) : State :=
  let p := BitVec.ofInt 32 ((s.reg ra).toInt * d.toInt)
  setCS (csSign p) (s.setPair ra p)

/-- The 32-bit product of two 32-bit numbers (47_int_muldiv, section 5.73). -/
def mulDouble (ra : Reg) (d : DWord) (s : State) : State :=
  let a := s.pair ra
  let r := BitVec.ofInt 32 (a.toInt * d.toInt)
  raiseIf (mulOverflow a d) fixedOverflow (setCS (csSign r) (s.setPair ra r))

/-- `DivQ`, rounded toward zero; zero for a zero divisor (47_int_muldiv R600, R601). -/
def divQuotient (x y : Int) : Int := if y = 0 then 0 else Int.tdiv x y

/-- `DivR`, with the sign of the dividend; zero for a zero divisor (47_int_muldiv R600, R601). -/
def divRemainder (x y : Int) : Int := if y = 0 then 0 else x - y * Int.tdiv x y

/-- Divide `x` by the single precision divisor `d`: quotient to RA, remainder to RA+1, CS from the quotient stored, overflow
when the divisor is zero or the quotient does not fit (47_int_muldiv, sections 5.76 and 5.77, R601). -/
def divideTo (ra : Reg) (x : Int) (d : Word) (s : State) : State :=
  let q := divQuotient x d.toInt
  let r := BitVec.ofInt 16 q
  raiseIf (decide (d = 0x0000#16) || outsideSigned 16 q) fixedOverflow
    (setCS (csSign r) ((s.setReg ra r).setReg (ra + 1) (BitVec.ofInt 16 (divRemainder x d.toInt))))

/-- 16-bit dividend in RA (47_int_muldiv, section 5.76). -/
def divSingle (ra : Reg) (d : Word) (s : State) : State := divideTo ra (s.reg ra).toInt d s

/-- 32-bit dividend in RA, RA+1 (47_int_muldiv, section 5.77). -/
def divPair (ra : Reg) (d : Word) (s : State) : State := divideTo ra (s.pair ra).toInt d s

/-- 32-bit dividend and divisor, the remainder is lost (47_int_muldiv, section 5.78). -/
def divDouble (ra : Reg) (d : DWord) (s : State) : State :=
  let q := divQuotient (s.pair ra).toInt d.toInt
  let r := BitVec.ofInt 32 q
  raiseIf (decide (d = 0x00000000#32) || outsideSigned 32 q) fixedOverflow (setCS (csSign r) (s.setPair ra r))

/-- MSR (47_int_muldiv R602). -/
def execMsr (ra rb : Reg) (s : State) : Out := .next (mulSingle ra (s.reg rb) s)

/-- MISP (47_int_muldiv R603). -/
def execMisp (ra : Reg) (n : Nat) (s : State) : Out := .next (mulSingle ra (shortPositive n) s)

/-- MISN (47_int_muldiv R604). -/
def execMisn (ra : Reg) (n : Nat) (s : State) : Out := .next (mulSingle ra (shortNegative n) s)

/-- MS (47_int_muldiv R605). -/
def execMs (ra rx : Reg) (addr : Word) (s : State) : Out :=
  withWord (daLong rx addr s) s fun d s => .next (mulSingle ra d s)

/-- MSIM (47_int_muldiv R606). -/
def execMsim (ra : Reg) (data : Word) (s : State) : Out := .next (mulSingle ra data s)

/-- MR (47_int_muldiv R607). -/
def execMr (ra rb : Reg) (s : State) : Out := .next (mulToPair ra (s.reg rb) s)

/-- MB (47_int_muldiv R608). -/
def execMb (br : Reg) (dspl : Byte) (s : State) : Out := withWord (daBase br dspl s) s fun d s => .next (mulToPair 2 d s)

/-- MBX (47_int_muldiv R609). -/
def execMbx (br rx : Reg) (s : State) : Out := withWord (daBaseIndexed br rx s) s fun d s => .next (mulToPair 2 d s)

/-- M (47_int_muldiv R610). -/
def execM (ra rx : Reg) (addr : Word) (s : State) : Out :=
  withWord (daLong rx addr s) s fun d s => .next (mulToPair ra d s)

/-- MIM (47_int_muldiv R611). -/
def execMim (ra : Reg) (data : Word) (s : State) : Out := .next (mulToPair ra data s)

/-- DMR (47_int_muldiv R612). -/
def execDmr (ra rb : Reg) (s : State) : Out := .next (mulDouble ra (s.pair rb) s)

/-- DM (47_int_muldiv R613). -/
def execDm (ra rx : Reg) (addr : Word) (s : State) : Out :=
  withDouble (daLong rx addr s) s fun d s => .next (mulDouble ra d s)

/-- DVR (47_int_muldiv R614). -/
def execDvr (ra rb : Reg) (s : State) : Out := .next (divSingle ra (s.reg rb) s)

/-- DISP (47_int_muldiv R615). -/
def execDisp (ra : Reg) (n : Nat) (s : State) : Out := .next (divSingle ra (shortPositive n) s)

/-- DISN (47_int_muldiv R616). -/
def execDisn (ra : Reg) (n : Nat) (s : State) : Out := .next (divSingle ra (shortNegative n) s)

/-- DV (47_int_muldiv R617). -/
def execDv (ra rx : Reg) (addr : Word) (s : State) : Out :=
  withWord (daLong rx addr s) s fun d s => .next (divSingle ra d s)

/-- DVIM (47_int_muldiv R618). -/
def execDvim (ra : Reg) (data : Word) (s : State) : Out := .next (divSingle ra data s)

/-- DR (47_int_muldiv R619). -/
def execDr (ra rb : Reg) (s : State) : Out := .next (divPair ra (s.reg rb) s)

/-- DB (47_int_muldiv R620). -/
def execDb (br : Reg) (dspl : Byte) (s : State) : Out := withWord (daBase br dspl s) s fun d s => .next (divPair 2 d s)

/-- DBX (47_int_muldiv R621). -/
def execDbx (br rx : Reg) (s : State) : Out := withWord (daBaseIndexed br rx s) s fun d s => .next (divPair 2 d s)

/-- D (47_int_muldiv R622). -/
def execD (ra rx : Reg) (addr : Word) (s : State) : Out :=
  withWord (daLong rx addr s) s fun d s => .next (divPair ra d s)

/-- DIM (47_int_muldiv R623). -/
def execDim (ra : Reg) (data : Word) (s : State) : Out := .next (divPair ra data s)

/-- DDR (47_int_muldiv R624). -/
def execDdr (ra rb : Reg) (s : State) : Out := .next (divDouble ra (s.pair rb) s)

/-- DD (47_int_muldiv R625). -/
def execDd (ra rx : Reg) (addr : Word) (s : State) : Out :=
  withDouble (daLong rx addr s) s fun d s => .next (divDouble ra d s)

end Sys2Proof.Machine
end

