-- ==== Sys2Proof/Machine/Shift.lean ====
section
/-! DEFINITION. Shift instructions (42_shift). -/

namespace Sys2Proof.Machine

/-- `rol` (42_shift R420): a cyclic left shift by n positions, n taken modulo the width. -/
def rotateLeft {w : Nat} (x : BitVec w) (n : Nat) : BitVec w := (x <<< (n % w)) ||| (x >>> (w - n % w))

/-- `ror` (42_shift R420). -/
def rotateRight {w : Nat} (x : BitVec w) (n : Nat) : BitVec w := rotateLeft x ((w - n % w) % w)

/-- A shift of a register with a count in the instruction (42_shift R420). -/
def shiftWord (f : Word → Nat → Word) (rb : Reg) (n : Nat) (s : State) : Out :=
  .next (setCS (csSign (f (s.reg rb) n)) (s.setReg rb (f (s.reg rb) n)))

/-- A shift of a register pair with a count in the instruction (42_shift R420). -/
def shiftPair (f : DWord → Nat → DWord) (rb : Reg) (n : Nat) (s : State) : Out :=
  .next (setCS (csSign (f (s.pair rb) n)) (s.setPair rb (f (s.pair rb) n)))

/-- SLL (42_shift R421). -/
def execSll (rb : Reg) (n : Nat) (s : State) : Out := shiftWord (fun x k => x <<< k) rb n s

/-- SRL (42_shift R422). -/
def execSrl (rb : Reg) (n : Nat) (s : State) : Out := shiftWord (fun x k => x >>> k) rb n s

/-- SRA (42_shift R423). -/
def execSra (rb : Reg) (n : Nat) (s : State) : Out := shiftWord BitVec.sshiftRight rb n s

/-- SLC (42_shift R424). -/
def execSlc (rb : Reg) (n : Nat) (s : State) : Out := shiftWord rotateLeft rb n s

/-- DSLL (42_shift R425). -/
def execDsll (rb : Reg) (n : Nat) (s : State) : Out := shiftPair (fun x k => x <<< k) rb n s

/-- DSRL (42_shift R426). -/
def execDsrl (rb : Reg) (n : Nat) (s : State) : Out := shiftPair (fun x k => x >>> k) rb n s

/-- DSRA (42_shift R427). -/
def execDsra (rb : Reg) (n : Nat) (s : State) : Out := shiftPair BitVec.sshiftRight rb n s

/-- DSLC (42_shift R428). -/
def execDslc (rb : Reg) (n : Nat) (s : State) : Out := shiftPair rotateLeft rb n s

/-- The result of a shift by a signed count: left when positive, right when negative (42_shift R429). -/
def signedShift {w : Nat} (left right : BitVec w → Nat → BitVec w) (x : BitVec w) (n : Int) : BitVec w :=
  if 0 < n then left x n.toNat else if n < 0 then right x (-n).toNat else x

/-- A shift of a register by the signed count in another: a count beyond 16 positions raises fixed point overflow and does
nothing else (42_shift R429). -/
def shiftWordBy (left right : Word → Nat → Word) (ovf : Word → Int → Bool) (ra rb : Reg) (s : State) : Out :=
  let n := (s.reg rb).toInt
  if 16 < n.natAbs then .next (raiseInterrupt fixedOverflow s)
  else
    let r := signedShift left right (s.reg ra) n
    .next (raiseIf (ovf (s.reg ra) n) fixedOverflow (setCS (csSign r) (s.setReg ra r)))

/-- A shift of a register pair by the signed count in a register (42_shift R429). -/
def shiftPairBy (left right : DWord → Nat → DWord) (ovf : DWord → Int → Bool) (ra rb : Reg) (s : State) : Out :=
  let n := (s.reg rb).toInt
  if 32 < n.natAbs then .next (raiseInterrupt fixedOverflow s)
  else
    let r := signedShift left right (s.pair ra) n
    .next (raiseIf (ovf (s.pair ra) n) fixedOverflow (setCS (csSign r) (s.setPair ra r)))

/-- Logical and cyclic shifts do not overflow. -/
def noOverflow {w : Nat} (_ : BitVec w) (_ : Int) : Bool := false

/-- A left arithmetic shift overflows when the sign bit changes on the way (42_shift R431, R434). -/
def leftOverflow {w : Nat} (x : BitVec w) (n : Int) : Bool := decide (0 < n) && shiftOverflow x n.toNat

/-- SLR (42_shift R430). -/
def execSlr (ra rb : Reg) (s : State) : Out := shiftWordBy (fun x k => x <<< k) (fun x k => x >>> k) noOverflow ra rb s

/-- SAR (42_shift R431). -/
def execSar (ra rb : Reg) (s : State) : Out := shiftWordBy (fun x k => x <<< k) BitVec.sshiftRight leftOverflow ra rb s

/-- SCR (42_shift R432). -/
def execScr (ra rb : Reg) (s : State) : Out := shiftWordBy rotateLeft rotateRight noOverflow ra rb s

/-- DSLR (42_shift R433). -/
def execDslr (ra rb : Reg) (s : State) : Out := shiftPairBy (fun x k => x <<< k) (fun x k => x >>> k) noOverflow ra rb s

/-- DSAR (42_shift R434). -/
def execDsar (ra rb : Reg) (s : State) : Out := shiftPairBy (fun x k => x <<< k) BitVec.sshiftRight leftOverflow ra rb s

/-- DSCR (42_shift R435). -/
def execDscr (ra rb : Reg) (s : State) : Out := shiftPairBy rotateLeft rotateRight noOverflow ra rb s

end Sys2Proof.Machine
end

