-- ==== Sys2Proof/Machine/Store.lean ====
section
/-! DEFINITION. Store and move instructions (45_store). -/

namespace Sys2Proof.Machine

/-- STB (45_store R521). -/
def execStb (br : Reg) (dspl : Byte) (s : State) : Out := storeAll (daBase br dspl s) [s.reg 2] s

/-- STBX (45_store R522). -/
def execStbx (br rx : Reg) (s : State) : Out := storeAll (daBaseIndexed br rx s) [s.reg 2] s

/-- ST (45_store R523). -/
def execSt (ra rx : Reg) (addr : Word) (s : State) : Out := storeAll (daLong rx addr s) [s.reg ra] s

/-- STI (45_store R524). -/
def execSti (ra rx : Reg) (addr : Word) (s : State) : Out :=
  withPointer rx addr s fun a s => storeAll a [s.reg ra] s

/-- STC (45_store R525). -/
def execStc (n : Fin 16) (rx : Reg) (addr : Word) (s : State) : Out :=
  storeAll (daLong rx addr s) [smallConstant n] s

/-- STCI (45_store R526). -/
def execStci (n : Fin 16) (rx : Reg) (addr : Word) (s : State) : Out :=
  withPointer rx addr s fun a s => storeAll a [smallConstant n] s

/-- The registers after one word of MOV, updated in the order the rule lists (45_store R527). -/
def movRegisters (ra rb : Reg) (s : State) : State :=
  let s1 := s.setReg ra (s.reg ra + 1)
  let s2 := s1.setReg rb (s1.reg rb + 1)
  s2.setReg (ra + 1) (s2.reg (ra + 1) - 1)

/-- MOV: one word for each execution, IC at the MOV until the count is exhausted (45_store R527, decision D24). -/
def execMov (ra rb : Reg) (s : State) : Out :=
  if s.reg (ra + 1) = 0x0000#16 then .next s
  else
    withWord (s.reg rb) s fun t s =>
      andThen (store (s.reg ra) t s) fun s' =>
        let s'' := movRegisters ra rb s'
        .next (if s''.reg (ra + 1) = 0x0000#16 then s'' else { s'' with ic := currentAddress s })

/-- DSTB (45_store R528). -/
def execDstb (br : Reg) (dspl : Byte) (s : State) : Out := storeAll (daBase br dspl s) (wordsOf2 (s.pair 0)) s

/-- DSTX (45_store R529). -/
def execDstx (br rx : Reg) (s : State) : Out := storeAll (daBaseIndexed br rx s) (wordsOf2 (s.pair 0)) s

/-- DST (45_store R530). -/
def execDst (ra rx : Reg) (addr : Word) (s : State) : Out :=
  storeAll (daLong rx addr s) (wordsOf2 (s.pair ra)) s

/-- DSTI (45_store R531). -/
def execDsti (ra rx : Reg) (addr : Word) (s : State) : Out :=
  withPointer rx addr s fun a s => storeAll a (wordsOf2 (s.pair ra)) s

/-- The bits of `d` where the mask is one, those of `t` elsewhere (45_store R532). -/
def throughMask (t d m : Word) : Word := (t &&& ~~~m) ||| (d &&& m)

/-- SRM: the mask is RA+1 (45_store R532). -/
def execSrm (ra rx : Reg) (addr : Word) (s : State) : Out :=
  updateWord (daLong rx addr s) (fun t => throughMask t (s.reg ra) (s.reg (ra + 1))) s

/-- The contents of registers R0 to R(k-1). -/
def firstRegs (k : Nat) (s : State) : List Word := (List.range k).map fun i => s.reg (Fin.ofNat 16 i)

/-- STM: N + 1 registers from R0 on (45_store R533). -/
def execStm (n : Fin 16) (rx : Reg) (addr : Word) (s : State) : Out :=
  storeAll (daLong rx addr s) (firstRegs (n.val + 1) s) s

/-- EFST (45_store R534). -/
def execEfst (ra rx : Reg) (addr : Word) (s : State) : Out :=
  storeAll (daLong rx addr s) (wordsOf3 (s.triple ra)) s

/-- Put the lower byte of RA into the upper byte of the word at `a` (45_store R535). -/
def storeUpperFrom (ra : Reg) (a : Word) (s : State) : Out :=
  updateWord a (fun t => lowerByte (s.reg ra) ++ lowerByte t) s

/-- Put the lower byte of RA into the lower byte of the word at `a` (45_store R537). -/
def storeLowerFrom (ra : Reg) (a : Word) (s : State) : Out :=
  updateWord a (fun t => upperByte t ++ lowerByte (s.reg ra)) s

/-- STUB (45_store R535). -/
def execStub (ra rx : Reg) (addr : Word) (s : State) : Out := storeUpperFrom ra (daLong rx addr s) s

/-- SUBI (45_store R536). -/
def execSubi (ra rx : Reg) (addr : Word) (s : State) : Out :=
  withPointer rx addr s fun a s => storeUpperFrom ra a s

/-- STLB (45_store R537). -/
def execStlb (ra rx : Reg) (addr : Word) (s : State) : Out := storeLowerFrom ra (daLong rx addr s) s

/-- SLBI (45_store R538). -/
def execSlbi (ra rx : Reg) (addr : Word) (s : State) : Out :=
  withPointer rx addr s fun a s => storeLowerFrom ra a s

/-- Push `k` registers from register `r` down; R15 is decremented before each store, also before its own (45_store R540,
decision D23). -/
def pushRegs : Nat → Reg → State → Except Out State
  | 0, _, s => .ok s
  | k + 1, r, s =>
    let s1 := s.setReg 15 (s.reg 15 - 1)
    match store (s1.reg 15) (s1.reg r) s1 with
    | .error o => .error o
    | .ok s' => pushRegs k (r - 1) s'

/-- PSHM (45_store R540). -/
def execPshm (ra rb : Reg) (s : State) : Out := andThen (pushRegs (rangeCount ra rb) rb s) .next

end Sys2Proof.Machine
end

