-- ==== Sys2Proof/Machine/Step.lean ====
section
/-! DEFINITION. One step of the machine: a turn of the environment, one instruction, the boundary after it. -/

namespace Sys2Proof.Machine

/-- Fetch and execute the instruction at IC, then the boundary (60_exceptions R760, R770). -/
def runInstruction (s : State) : Out :=
  match fetch s with
  | .error o => atBoundary o
  | .ok (i, s') => atBoundary (exec i s')

/-- One step: the environment's turn, then, unless the processor is halted, one instruction and its boundary. -/
def step (s : State) : Host.Outcome State Fault Refusal :=
  andThen (takeTurn s) fun s' => if s'.halted then .next s' else runInstruction s'

/-- The bits `w` (the first `nbits` of them; bit 0 the least significant bit of the first word) as the two words at which
`step` fetches its next instruction; no event precedes either and the processor runs. How a program comes to run: log 19. -/
def State.withFetchWord (s : State) (nbits w : Nat) : State :=
  let v := w % 2 ^ nbits
  let s1 := placeFetchWord s.ic (BitVec.ofNat 16 v) s
  let s2 := placeFetchWord (s.ic + 1) (BitVec.ofNat 16 (v / 2 ^ 16)) s1
  { s2 with halted := false, env := if s.env = [] then [] else [] :: [] :: s.env }

end Sys2Proof.Machine
end

