-- ==== Sys2Proof/Safety.lean ====
section
/-! DEFINITION. The terms the statements use: what an instruction changes and leaves unchanged, what reaches memory, what a
good state is. -/

namespace Sys2Proof.Machine

/-- The instruction ends in a next state with the property `P`. -/
def Completes (o : Out) (P : State → Prop) : Prop := ∃ t, o = .next t ∧ P t

/-! ## Condition status in terms of exact integers (00_scope R116) -/

/-- CS of an exact integer: Z, N or P by its sign, C = 0. -/
def signCS (x : Int) : BitVec 4 := if x = 0 then 0b0010#4 else if x < 0 then 0b0001#4 else 0b0100#4

/-- The C bit of CS. -/
def carryCS (c : Prop) [Decidable c] : BitVec 4 := if c then 0b1000#4 else 0b0000#4

/-- CS of a comparison of two integers. -/
def orderCS (a b : Int) : BitVec 4 := if a = b then 0b0010#4 else if a < b then 0b0001#4 else 0b0100#4

/-- An integer that does not fit W bits in two's complement. -/
def Unrepresentable (w : Nat) (x : Int) : Prop := x < -(2 : Int) ^ (w - 1) ∨ (2 : Int) ^ (w - 1) - 1 < x

/-! ## Frames -/

/-- Nothing but general registers, SW and PI differs: every byte of memory, the instruction counter, MK, FT and every other
special register is as before. -/
def OnlyRegsSwPi (s t : State) : Prop := t = { s with regs := t.regs, sw := t.sw, pi := t.pi }

/-- Every general register but those listed is as before. -/
def KeepsRegs (rs : List Reg) (s t : State) : Prop := ∀ r, r ∉ rs → t.reg r = s.reg r

/-- The bits of SW outside CS are as before. -/
def KeepsStatus (s t : State) : Prop := t.sw.extractLsb' 0 12 = s.sw.extractLsb' 0 12

/-- The frame of an instruction that writes the registers listed, CS and PI. -/
def Frame (rs : List Reg) (s t : State) : Prop := OnlyRegsSwPi s t ∧ KeepsRegs rs s t ∧ KeepsStatus s t

/-- PI bit n is set when `c` holds; PI is otherwise as before. -/
def Pends (n : BitNo) (c : Prop) (s t : State) : Prop := (c → t.pi = s.pi ||| bitMask n) ∧ (¬c → t.pi = s.pi)

/-- One register receives `v`, CS becomes `cs`, fixed point overflow is requested when `ovf` holds, nothing else changes. -/
def WordResult (ra : Reg) (v : Word) (cs : BitVec 4) (ovf : Prop) (s t : State) : Prop :=
  Frame [ra] s t ∧ t.reg ra = v ∧ csOf t.sw = cs ∧ Pends 4 ovf s t

/-- A register pair receives `v`. -/
def PairResult (ra : Reg) (v : DWord) (cs : BitVec 4) (ovf : Prop) (s t : State) : Prop :=
  Frame [ra, ra + 1] s t ∧ t.pair ra = v ∧ csOf t.sw = cs ∧ Pends 4 ovf s t

/-- Two registers receive `v` (RA) and `w` (RA+1). -/
def TwoResults (ra : Reg) (v w : Word) (cs : BitVec 4) (ovf : Prop) (s t : State) : Prop :=
  Frame [ra, ra + 1] s t ∧ t.reg ra = v ∧ t.reg (ra + 1) = w ∧ csOf t.sw = cs ∧ Pends 4 ovf s t

/-- Three registers receive `v`. -/
def TripleResult (ra : Reg) (v : TWord) (cs : BitVec 4) (s t : State) : Prop :=
  Frame [ra, ra + 1, ra + 2] s t ∧ t.triple ra = v ∧ csOf t.sw = cs ∧ t.pi = s.pi

/-- CS becomes `cs` and nothing else changes. -/
def StatusResult (cs : BitVec 4) (s t : State) : Prop := t = { s with sw := cs ++ s.sw.extractLsb' 0 12 }


/-! ## Turns of the environment -/

/-- The environment does nothing in the next `n` of its turns. -/
def QuietFor (n : Nat) (s : State) : Prop := ∀ k, k < n → (s.env[k]?).getD [] = []

/-- The state after `n` turns in which the environment did nothing. -/
def afterTurns (n : Nat) (s : State) : State := { s with env := s.env.drop n }

/-! ## Memory -/

/-- An operand read of the logical address `a`, at this moment, delivers `w`. -/
def Reads (s : State) (a w : Word) : Prop := readNow (operAccess s) a s = .ok w

/-- An operand write to the logical address passes every check of 20_memory R226. -/
def Writable (s : State) (a : Word) : Prop := refFault s .cpu (operAccess s) true a = none

/-- The physical word an operand reference to a logical address reaches. -/
def physOf (s : State) (a : Word) : PAddr := translate s (operAccess s) a

/-- The byte addresses of `n` words at ascending logical addresses from `a` on. -/
def InWords (s : State) (a : Word) (n b : Nat) : Prop :=
  ∃ k, k < n ∧ (b = 2 * (physOf s (a + BitVec.ofNat 16 k)).toNat ∨ b = 2 * (physOf s (a + BitVec.ofNat 16 k)).toNat + 1)

/-- The words `ws` stand at ascending logical addresses from `a` on, and every other byte of memory is as before. -/
def StoresAt (a : Word) (ws : List Word) (s t : State) : Prop :=
  (∀ k v, ws[k]? = some v → Memory.readWord t.mem (physOf s (a + BitVec.ofNat 16 k)) = v) ∧
    ∀ b, ¬InWords s a ws.length b → Memory.readByte t.mem b = Memory.readByte s.mem b

/-- Memory receives `ws` at `a` and nothing but memory changes. -/
def StoreResult (a : Word) (ws : List Word) (s t : State) : Prop := t = { s with mem := t.mem } ∧ StoresAt a ws s t

/-- An operand write of each of `n` words at ascending logical addresses from `a` on passes every check. -/
def WritableWords (s : State) (a : Word) (n : Nat) : Prop := ∀ k, k < n → Writable s (a + BitVec.ofNat 16 k)

/-- Memory receives `ws` at `a`, CS becomes `cs`, fixed point overflow is requested when `ovf` holds, nothing else changes. -/
def StoreStatusResult (a : Word) (ws : List Word) (cs : BitVec 4) (ovf : Prop) (s t : State) : Prop :=
  t = { s with mem := t.mem, sw := t.sw, pi := t.pi } ∧ StoresAt a ws s t ∧ KeepsStatus s t ∧ csOf t.sw = cs ∧
    Pends 4 ovf s t

/-- Memory receives `ws` at `a`, the registers listed may change, nothing else changes. -/
def StoreRegsResult (rs : List Reg) (a : Word) (ws : List Word) (s t : State) : Prop :=
  t = { s with mem := t.mem, regs := t.regs, ic := t.ic } ∧ KeepsRegs rs s t ∧ StoresAt a ws s t

/-- The memory fault status shows, in the adopted layout, a page register number, the instruction bit and a group; it is as
before when it is not implemented (20_memory R217, log 104). -/
def MfsrShows (lpa : BitVec 4) (io : BitVec 1) (group : BitVec 4) (s t : State) : Prop :=
  (s.cfg.mfsr = none → t.mfsr = s.mfsr) ∧
    (s.cfg.mfsr = some MfsrLayout.adopted → t.mfsr = ((lpa ++ 0#7) ++ io) ++ group)

/-- What a reference with access `a` to a logical address leaves when it faults and FT bit `k` is its fault, and nothing else:
the fault (60_exceptions R780) and the memory fault status. -/
def RefFaulted (k : BitNo) (a : Access) (logical : Word) (s t : State) : Prop :=
  t = { raiseFault k s with mfsr := t.mfsr } ∧
    MfsrShows (logical.extractLsb' 12 4) (if a.kind = .instr then 1#1 else 0#1)
      (if s.cfg.expanded.isSome then a.group else 0#4) s t

/-- The word stores of an instruction one by one, each after a turn of the environment: a word that may be written is stored,
one that is write protected sets FT bit 0 and is passed over, one that is refused for another reason (FT bit 8 for an
absent word, else bit 0) ends the instruction with the words before it stored (20_memory R213, R216, R219, R222). -/
def StoresOneByOne : Word → List Word → State → Out → Prop
  | _, [], s, o => o = .next s
  | a, v :: rest, s, o =>
    (∀ e, takeTurn s = .error e → o = e) ∧
      ∀ u, takeTurn s = .ok u →
        (Writable u a → ∃ t, StoreResult a [v] u t ∧ StoresOneByOne (a + 1) rest t o) ∧
        (refFault u .cpu (operAccess u) true a = some .writeProtect →
          ∃ t, RefFaulted 0 (operAccess u) a u t ∧ StoresOneByOne (a + 1) rest t o) ∧
        ∀ f, f ≠ .writeProtect → refFault u .cpu (operAccess u) true a = some f →
          ∃ t, RefFaulted (if f = .illegalAddress then 8 else 0) (operAccess u) a u t ∧ o = .next t

/-! ## Taking an interrupt -/

/-- The five words that the interrupt sequence reads for vector n with the entry offset `off`, all readable: service pointer,
new MK, new SW, new IC, linkage pointer (60_exceptions R772). -/
def VectorReads (n : BitNo) (off svp m w i lp : Word) (s : State) : Prop :=
  readNow vectorAccess (0x0021#16 + BitVec.ofNat 16 (2 * n.val)) s = .ok svp ∧
    readNow vectorAccess svp s = .ok m ∧ readNow vectorAccess (svp + 1) s = .ok w ∧
    readNow vectorAccess (svp + 2 + off) s = .ok i ∧
    readNow vectorAccess (0x0020#16 + BitVec.ofNat 16 (2 * n.val)) s = .ok lp

/-- The three linkage stores, in the group of the new SW and with key 0, pass every check (60_exceptions R772). -/
def LinkageWritable (w lp : Word) (s : State) : Prop :=
  ∀ k, k < 3 → refFault s .cpu (linkageAccess w) true (lp + BitVec.ofNat 16 k) = none

/-- The physical word of linkage word k. -/
def linkageWord (w lp : Word) (s : State) (k : Nat) : PAddr := translate s (linkageAccess w) (lp + BitVec.ofNat 16 k)

/-- The old MK, SW and IC stand in the linkage area and every other byte of memory is as before. -/
def LinkageSaved (w lp : Word) (s t : State) : Prop :=
  Memory.readWord t.mem (linkageWord w lp s 0) = s.mask ∧ Memory.readWord t.mem (linkageWord w lp s 1) = s.sw ∧
    Memory.readWord t.mem (linkageWord w lp s 2) = s.ic ∧
    ∀ b, (∀ k, k < 3 → b ≠ 2 * (linkageWord w lp s k).toNat ∧ b ≠ 2 * (linkageWord w lp s k).toNat + 1) →
      Memory.readByte t.mem b = Memory.readByte s.mem b

/-- A new MK, SW and IC are loaded, the old ones stand in the linkage area, interrupts are disabled; nothing else changes but
that an address state that is not implemented raises Fault 11 (60_exceptions R772, R773; 10_state R146). -/
def VectorTaken (m w i lp : Word) (s t : State) : Prop :=
  LinkageSaved w lp s t ∧
    t = (let u := { s with
           mem := t.mem, mask := m, sw := w, ic := i, ie := false, enblPending := false, enblIssued := false }
         if groupImplemented s.cfg (asOf w) then u else raiseFault 11 u)

/-! ## Exact results on integers -/

/-- A left shift: times a power of two, modulo the width (42_shift R420). -/
def shiftedLeft (w : Nat) (x : BitVec w) (n : Nat) : BitVec w := BitVec.ofNat w (x.toNat * 2 ^ n)

/-- A logical right shift: divided by a power of two. -/
def shiftedRight (w : Nat) (x : BitVec w) (n : Nat) : BitVec w := BitVec.ofNat w (x.toNat / 2 ^ n)

/-- An arithmetic right shift: the signed number divided by a power of two, rounded down. -/
def shiftedArithmetic (w : Nat) (x : BitVec w) (n : Nat) : BitVec w := BitVec.ofInt w (Int.fdiv x.toInt ((2 : Int) ^ n))

/-- A left rotation by 0 to w positions: the bits that leave on the left come back on the right. -/
def rotatedLeft (w : Nat) (x : BitVec w) (n : Nat) : BitVec w := BitVec.ofNat w (x.toNat * 2 ^ n + x.toNat / 2 ^ (w - n))

/-- A right rotation by 0 to w positions. -/
def rotatedRight (w : Nat) (x : BitVec w) (n : Nat) : BitVec w := BitVec.ofNat w (x.toNat / 2 ^ n + x.toNat * 2 ^ (w - n))

/-- A shift by a signed count: left when it is positive, right when it is negative. -/
def shiftedBy {w : Nat} (left right : BitVec w → Nat → BitVec w) (x : BitVec w) (n : Int) : BitVec w :=
  if 0 ≤ n then left x n.toNat else right x (-n).toNat

/-- A register receives `v`, CS its sign with C = 0, no interrupt is requested. -/
def WordPut (ra : Reg) (v : Word) (s t : State) : Prop := WordResult ra v (signCS v.toInt) False s t

/-- A register pair receives `v`, CS its sign with C = 0, no interrupt is requested. -/
def PairPut (ra : Reg) (v : DWord) (s t : State) : Prop := PairResult ra v (signCS v.toInt) False s t

/-- Three registers receive `v`, CS its sign with C = 0, no interrupt is requested. -/
def TriplePut (ra : Reg) (v : TWord) (s t : State) : Prop := TripleResult ra v (signCS v.toInt) s t

/-- The sum of two words: the exact sum modulo 2^16, CS its sign and the carry, overflow when the exact sum does not fit
(46_int_addsub R560). -/
def SumPut (ra : Reg) (x d : Word) (s t : State) : Prop :=
  WordResult ra (BitVec.ofInt 16 (x.toInt + d.toInt))
    (signCS (BitVec.ofInt 16 (x.toInt + d.toInt)).toInt ||| carryCS (2 ^ 16 ≤ x.toNat + d.toNat))
    (Unrepresentable 16 (x.toInt + d.toInt)) s t

/-- The difference of two words; the carry is one when there is no borrow. -/
def DifferencePut (ra : Reg) (x d : Word) (s t : State) : Prop :=
  WordResult ra (BitVec.ofInt 16 (x.toInt - d.toInt))
    (signCS (BitVec.ofInt 16 (x.toInt - d.toInt)).toInt ||| carryCS (d.toNat ≤ x.toNat))
    (Unrepresentable 16 (x.toInt - d.toInt)) s t

/-- The sum of two double words. -/
def SumPut2 (ra : Reg) (x d : DWord) (s t : State) : Prop :=
  PairResult ra (BitVec.ofInt 32 (x.toInt + d.toInt))
    (signCS (BitVec.ofInt 32 (x.toInt + d.toInt)).toInt ||| carryCS (2 ^ 32 ≤ x.toNat + d.toNat))
    (Unrepresentable 32 (x.toInt + d.toInt)) s t

/-- The difference of two double words. -/
def DifferencePut2 (ra : Reg) (x d : DWord) (s t : State) : Prop :=
  PairResult ra (BitVec.ofInt 32 (x.toInt - d.toInt))
    (signCS (BitVec.ofInt 32 (x.toInt - d.toInt)).toInt ||| carryCS (d.toNat ≤ x.toNat))
    (Unrepresentable 32 (x.toInt - d.toInt)) s t

/-- An exact integer to a word register: modulo 2^16, CS the sign of what is stored with C = 0, overflow when it does not
fit. -/
def IntPut (ra : Reg) (x : Int) (s t : State) : Prop :=
  WordResult ra (BitVec.ofInt 16 x) (signCS (BitVec.ofInt 16 x).toInt) (Unrepresentable 16 x) s t

/-- An exact integer to a register pair. -/
def IntPut2 (ra : Reg) (x : Int) (s t : State) : Prop :=
  PairResult ra (BitVec.ofInt 32 x) (signCS (BitVec.ofInt 32 x).toInt) (Unrepresentable 32 x) s t

/-- The quotient of `x` by `d`, rounded toward zero, and the remainder with the sign of `x`, to two registers; zero and
zero with overflow when `d` is zero (47_int_muldiv R600, R601). -/
def QuotientPut (ra : Reg) (x d : Int) (s t : State) : Prop :=
  if d = 0 then TwoResults ra 0x0000#16 0x0000#16 (signCS 0) True s t
  else
    TwoResults ra (BitVec.ofInt 16 (Int.tdiv x d)) (BitVec.ofInt 16 (Int.tmod x d))
      (signCS (BitVec.ofInt 16 (Int.tdiv x d)).toInt) (Unrepresentable 16 (Int.tdiv x d)) s t

/-- The double precision quotient; the remainder is lost (47_int_muldiv R600, R601). -/
def QuotientPut2 (ra : Reg) (x d : Int) (s t : State) : Prop :=
  if d = 0 then PairResult ra 0x00000000#32 (signCS 0) True s t
  else
    PairResult ra (BitVec.ofInt 32 (Int.tdiv x d)) (signCS (BitVec.ofInt 32 (Int.tdiv x d)).toInt)
      (Unrepresentable 32 (Int.tdiv x d)) s t

/-! ## The forms of an instruction -/

/-- With the word at `a` readable as an operand in the state `s`, `o` is a next state with `P` of the word and the state after
the turn before the read. -/
def WithWordAt (a : Word) (s : State) (o : Out) (P : Word → State → State → Prop) : Prop :=
  ∀ d u, load a s = .ok (d, u) → Completes o (P d u)

/-- With the double word at `a` readable. -/
def WithDoubleAt (a : Word) (s : State) (o : Out) (P : DWord → State → State → Prop) : Prop :=
  ∀ d u, load2 a s = .ok (d, u) → Completes o (P d u)

/-- With the triple word at `a` readable. -/
def WithTripleAt (a : Word) (s : State) (o : Out) (P : TWord → State → State → Prop) : Prop :=
  ∀ d u, load3 a s = .ok (d, u) → Completes o (P d u)

/-- The R form: destination RA, operand RB. -/
def RegForm (r : Reg → Reg → Instr) (P : Reg → Word → State → State → Prop) : Prop :=
  ∀ s ra rb, Completes (exec (r ra rb) s) (P ra (s.reg rb) s)

/-- The R form on register pairs. -/
def RegForm2 (r : Reg → Reg → Instr) (P : Reg → DWord → State → State → Prop) : Prop :=
  ∀ s ra rb, Completes (exec (r ra rb) s) (P ra (s.pair rb) s)

/-- The R form on three registers. -/
def RegForm3 (r : Reg → Reg → Instr) (P : Reg → TWord → State → State → Prop) : Prop :=
  ∀ s ra rb, Completes (exec (r ra rb) s) (P ra (s.triple rb) s)

/-- The D and DX forms: destination RA, operand the word at DA. -/
def MemForm (m : Reg → Reg → Word → Instr) (P : Reg → Word → State → State → Prop) : Prop :=
  ∀ s ra rx addr, WithWordAt (daLong rx addr s) s (exec (m ra rx addr) s) (P ra)

/-- The D and DX forms with a double word. -/
def MemForm2 (m : Reg → Reg → Word → Instr) (P : Reg → DWord → State → State → Prop) : Prop :=
  ∀ s ra rx addr, WithDoubleAt (daLong rx addr s) s (exec (m ra rx addr) s) (P ra)

/-- The D and DX forms with a triple word. -/
def MemForm3 (m : Reg → Reg → Word → Instr) (P : Reg → TWord → State → State → Prop) : Prop :=
  ∀ s ra rx addr, WithTripleAt (daLong rx addr s) s (exec (m ra rx addr) s) (P ra)

/-- The I and IX forms: the operand is the word at the address that the pointer word holds. -/
def IndirectForm (m : Reg → Reg → Word → Instr) (P : Reg → Word → State → State → Prop) : Prop :=
  ∀ s ra rx addr a u, daIndirect rx addr s = .ok (a, u) → WithWordAt a u (exec (m ra rx addr) s) (P ra)

/-- The I and IX forms with a double word. -/
def IndirectForm2 (m : Reg → Reg → Word → Instr) (P : Reg → DWord → State → State → Prop) : Prop :=
  ∀ s ra rx addr a u, daIndirect rx addr s = .ok (a, u) → WithDoubleAt a u (exec (m ra rx addr) s) (P ra)

/-- The B and BX forms: the destination is the implied accumulator `acc`. -/
def BaseForms (b : Reg → Byte → Instr) (bx : Reg → Reg → Instr) (acc : Reg) (P : Reg → Word → State → State → Prop) : Prop :=
  (∀ s br dspl, WithWordAt (daBase br dspl s) s (exec (b br dspl) s) (P acc)) ∧
    ∀ s br rx, WithWordAt (daBaseIndexed br rx s) s (exec (bx br rx) s) (P acc)

/-- The B and BX forms with a double word. -/
def BaseForms2 (b : Reg → Byte → Instr) (bx : Reg → Reg → Instr) (acc : Reg) (P : Reg → DWord → State → State → Prop) : Prop :=
  (∀ s br dspl, WithDoubleAt (daBase br dspl s) s (exec (b br dspl) s) (P acc)) ∧
    ∀ s br rx, WithDoubleAt (daBaseIndexed br rx s) s (exec (bx br rx) s) (P acc)

/-- The IM form: the operand is the second word of the instruction. -/
def ImmediateForm (m : Reg → Word → Instr) (P : Reg → Word → State → State → Prop) : Prop :=
  ∀ s ra data, Completes (exec (m ra data) s) (P ra data s)

/-- The ISP form: the operand is the number 1 to 16 of the instruction. -/
def PositiveForm (m : Reg → Nat → Instr) (P : Reg → Word → State → State → Prop) : Prop :=
  ∀ s ra n, Completes (exec (m ra n) s) (P ra (BitVec.ofInt 16 n) s)

/-- The ISN form: the operand is the negative of the number 1 to 16 of the instruction. -/
def NegativeForm (m : Reg → Nat → Instr) (P : Reg → Word → State → State → Prop) : Prop :=
  ∀ s ra n, Completes (exec (m ra n) s) (P ra (BitVec.ofInt 16 (-n)) s)

/-! ## Vectored input and output -/

/-- The commands of VIO for the selected bit numbers in order, `c0 + n * r` for bit n, each with the next data word from `a` on
(40_io R380): an illegal one raises Fault 5 and ends the chain, the commands before it stay done; an output command takes
its word from memory, an input command puts it there; a reference that ends the step ends the chain. -/
def VioRuns (c0 r : Word) : List BitNo → Word → State → Out → Prop
  | [], _, s, o => o = .next s
  | n :: rest, a, s, o =>
    (decodeIo s.cfg (c0 + BitVec.ofNat 16 n.val * r) = none → o = .next (raiseFault 5 s)) ∧
    (∀ k, decodeIo s.cfg (c0 + BitVec.ofNat 16 n.val * r) = some (.out k) →
      (∀ e, load a s = .error e → o = e) ∧
        ∀ w u, load a s = .ok (w, u) → VioRuns c0 r rest (a + 1) (outputEffect k w u) o) ∧
    ∀ k, decodeIo s.cfg (c0 + BitVec.ofNat 16 n.val * r) = some (.inp k) →
      (∀ e, takeTurn s = .error e → o = e) ∧
        ∀ u, takeTurn s = .ok u →
          (∀ e, store a (inputEffect k u).1 (inputEffect k u).2 = .error e → o = e) ∧
            ∀ t, store a (inputEffect k u).1 (inputEffect k u).2 = .ok t → VioRuns c0 r rest (a + 1) t o

/-! ## Floating point values -/

/-- The rational number a mantissa of width `w` and an exponent stand for (48_float R640). -/
def floatValue (w : Nat) (x : Unpacked) : ℚ := (x.m : ℚ) * (2 : ℚ) ^ (x.e - ((w : Int) - 1))

/-- A mantissa of width `w` that is normalized: its first two bits differ (48_float R640). -/
def Normalized (w : Nat) (m : Int) : Prop :=
  ((2 : Int) ^ (w - 2) ≤ m ∧ m < (2 : Int) ^ (w - 1)) ∨ (-(2 : Int) ^ (w - 1) ≤ m ∧ m < -(2 : Int) ^ (w - 2))

/-- Floating point zero or a normalized number (48_float R640, R641). -/
def GoodFloat (w : Nat) (x : Unpacked) : Prop := (x.m = 0 ∧ x.e = 0) ∨ Normalized w x.m

/-- A value other than zero whose normalized exponent is less than -128 (48_float R642). -/
def Underflows (v : ℚ) : Prop := v ≠ 0 ∧ -((2 : ℚ) ^ (-129 : Int)) ≤ v ∧ v < (2 : ℚ) ^ (-129 : Int)

/-- The largest magnitude of a sign, delivered on overflow (48_float R642). -/
def FloatLimit (w : Nat) (negative : Prop) (x : Unpacked) : Prop :=
  (negative → x.m = -(2 : Int) ^ (w - 1)) ∧ (¬negative → x.m = (2 : Int) ^ (w - 1) - 1) ∧ x.e = 127

/-- The good floating point number next to `v` from below, truncated to the width of the mantissa. -/
def FloatTruncated (w : Nat) (v : ℚ) (x : Unpacked) : Prop :=
  GoodFloat w x ∧ (x.m = 0 → v = 0) ∧ floatValue w x ≤ v ∧ v < floatValue w x + (2 : ℚ) ^ (x.e - ((w : Int) - 1))

/-- What a floating point sum or difference delivers, and the interrupt it requests: the mantissa with the smaller exponent
is shifted right, bits lost; a sum that does not fit is halved (48_float R643, decision D29, log 129). -/
def FloatSum (sub : Bool) (w : Nat) (a o x : Unpacked) (p : Option BitNo) : Prop :=
  let e := if a.m = 0 then o.e else if o.m = 0 then a.e else max a.e o.e
  let am := Int.fdiv a.m ((2 : Int) ^ (e - a.e).toNat)
  let om := Int.fdiv o.m ((2 : Int) ^ (e - o.e).toNat)
  let m := if sub then am - om else am + om
  if m < -(2 : Int) ^ (w - 1) ∨ (2 : Int) ^ (w - 1) - 1 < m then
    if e = 127 then FloatLimit w (m < 0) x ∧ p = some 3 else x = { m := Int.fdiv m 2, e := e + 1 } ∧ p = none
  else if m ≠ 0 ∧ -((2 : ℚ) ^ (-129 : Int)) ≤ floatValue w { m := m, e := e } ∧
      floatValue w { m := m, e := e } < (2 : ℚ) ^ (-129 : Int) then x = { m := 0, e := 0 } ∧ p = some 6
  else GoodFloat w x ∧ floatValue w x = floatValue w { m := m, e := e } ∧ p = none

/-- What a floating point product delivers (48_float R658). -/
def FloatProduct (w : Nat) (a o x : Unpacked) (p : Option BitNo) : Prop :=
  if 127 < a.e + o.e ∨ (a.e + o.e = 127 ∧ a.m = -(2 : Int) ^ (w - 1) ∧ o.m = -(2 : Int) ^ (w - 1)) then
    FloatLimit w ((a.m < 0 ∧ ¬o.m < 0) ∨ (¬a.m < 0 ∧ o.m < 0)) x ∧ p = some 3
  else
    (a.e + o.e < -128 ∨ Underflows (floatValue w a * floatValue w o) → x = { m := 0, e := 0 } ∧ p = some 6) ∧
      (¬(a.e + o.e < -128 ∨ Underflows (floatValue w a * floatValue w o)) →
        FloatTruncated w (floatValue w a * floatValue w o) x ∧ p = none)

/-- What a floating point quotient delivers (48_float R665, decision D30, log 130). -/
def FloatQuotient (w : Nat) (a o x : Unpacked) (p : Option BitNo) : Prop :=
  let n := if a.m = 0 then 0 else a.e - o.e
  if o.m = 0 ∨ 127 < n ∨ (n = 127 ∧ o.m.natAbs ≤ a.m.natAbs) then
    FloatLimit w ((a.m < 0 ∧ ¬o.m < 0) ∨ (¬a.m < 0 ∧ o.m < 0)) x ∧ p = some 3
  else
    (n < -128 ∨ Underflows (floatValue w a / floatValue w o) → x = { m := 0, e := 0 } ∧ p = some 6) ∧
      (¬(n < -128 ∨ Underflows (floatValue w a / floatValue w o)) →
        FloatTruncated w (floatValue w a / floatValue w o) x ∧ p = none)

/-- PI after the request, if any, of a floating point operation. -/
def piAfter (p : Option BitNo) (s : State) : Word :=
  match p with
  | none => s.pi
  | some n => s.pi ||| bitMask n

/-- A floating point number of 32 bits and a request as `P` says are delivered to a register pair; CS is the sign of the
mantissa (48_float R642). -/
def FloatPut (ra : Reg) (P : Unpacked → Option BitNo → Prop) (s t : State) : Prop :=
  Frame [ra, ra + 1] s t ∧ csOf t.sw = signCS (unpack32 (t.pair ra)).m ∧
    ∃ p, P (unpack32 (t.pair ra)) p ∧ t.pi = piAfter p s

/-- A floating point number of 48 bits is delivered to three registers. -/
def FloatPut3 (ra : Reg) (P : Unpacked → Option BitNo → Prop) (s t : State) : Prop :=
  Frame [ra, ra + 1, ra + 2] s t ∧ csOf t.sw = signCS (unpack48 (t.triple ra)).m ∧
    ∃ p, P (unpack48 (t.triple ra)) p ∧ t.pi = piAfter p s

/-- An operand that is neither floating point zero nor normalized leaves the registers listed, CS and PI bits 3, 4 and 6
open, and nothing else (48_float R641, decision D27, logs 8 and 127). -/
def FloatOpen (rs : List Reg) (s t : State) : Prop :=
  t = { s with regs := t.regs, sw := t.sw, pi := t.pi, draws := t.draws } ∧ KeepsRegs rs s t ∧ KeepsStatus s t ∧
    t.pi &&& ~~~0x1A00#16 = s.pi &&& ~~~0x1A00#16

/-- The result of a 32-bit floating point operation `R` on `RR(RA)` and an operand. -/
def FloatOp (R : Unpacked → Unpacked → Unpacked → Option BitNo → Prop) (ra : Reg) (d : DWord) (s t : State) : Prop :=
  (GoodFloat 24 (unpack32 (s.pair ra)) ∧ GoodFloat 24 (unpack32 d) →
    FloatPut ra (R (unpack32 (s.pair ra)) (unpack32 d)) s t) ∧
    (¬(GoodFloat 24 (unpack32 (s.pair ra)) ∧ GoodFloat 24 (unpack32 d)) → FloatOpen [ra, ra + 1] s t)

/-- The result of a 48-bit floating point operation `R` on `RRR(RA)` and an operand. -/
def FloatOp3 (R : Unpacked → Unpacked → Unpacked → Option BitNo → Prop) (ra : Reg) (d : TWord) (s t : State) : Prop :=
  (GoodFloat 40 (unpack48 (s.triple ra)) ∧ GoodFloat 40 (unpack48 d) →
    FloatPut3 ra (R (unpack48 (s.triple ra)) (unpack48 d)) s t) ∧
    (¬(GoodFloat 40 (unpack48 (s.triple ra)) ∧ GoodFloat 40 (unpack48 d)) → FloatOpen [ra, ra + 1, ra + 2] s t)

/-- The result of comparing two floating point numbers of width `w`: CS by the order of the values; CS open when one of them is
neither zero nor normalized (48_float R676, R641). -/
def FloatOrder (w : Nat) (a o : Unpacked) (s t : State) : Prop :=
  (GoodFloat w a ∧ GoodFloat w o →
    (floatValue w a = floatValue w o → StatusResult 0b0010#4 s t) ∧
      (floatValue w a < floatValue w o → StatusResult 0b0001#4 s t) ∧
      (floatValue w o < floatValue w a → StatusResult 0b0100#4 s t)) ∧
    (¬(GoodFloat w a ∧ GoodFloat w o) → t = { s with sw := t.sw, draws := t.draws } ∧ KeepsStatus s t)

/-- The integer part of a rational number, rounded toward zero (48_float R672). -/
def towardZero (v : ℚ) : Int := if 0 ≤ v then ⌊v⌋ else ⌈v⌉

/-! ## Good states -/

/-- Bits 5 to 7 of a page register are zero, and its AL field too when the lock feature is not implemented (20_memory R208,
R209). -/
def pageRegisterOk (c : Config) (w : Word) : Bool := decide (pageWord c w = w)

/-- The page file of a good state. -/
def PagesOk (s : State) : Prop := ∀ (kind : RefKind) (g y : BitVec 4), pageRegisterOk s.cfg (pageRegister s kind g y) = true

/-- A good state between two steps: memory is in canonical form (20_memory R200; the model's form, logs 2 and 3), the reserved
fields of the page registers are zero, an FT bit that is not implemented is zero (10_state R147), no bit is held back
from the interrupt recognition (10_state R162), and the mark of an ENBL lives only inside an instruction (log 12). -/
def Good (s : State) : Prop :=
  Memory.wf s.mem = true ∧ PagesOk s ∧ s.ft &&& ~~~s.cfg.ftImplemented = 0x0000#16 ∧ s.piHold = 0x0000#16 ∧
    s.enblIssued = false

end Sys2Proof.Machine
end

