-- ==== Sys2Proof/Certificates/Slice0/Obligations.lean ====
section
/-! DEFINITION. The statements for the provers. Exec sees the state after the fetch: IC has passed the instruction
(`Obligations.StepRunsDecodedInstruction`). -/

section

open Sys2Proof Sys2Proof.Machine

/-! ## Encoding (30_encoding) -/

/-- First words written out from the encodings of 30_encoding decode to the instructions they stand for. -/
def Obligations.DecodeReadsSampleWords : Prop :=
  decode 0x8112#16 0x0000#16 = .ok (.lr 1 2) ∧ decode 0x8035#16 0x1234#16 = .ok (.l 3 5 0x1234#16) ∧
    decode 0x4A21#16 0xFFFF#16 = .ok (.aim 2 0xFFFF#16) ∧ decode 0x823F#16 0x0000#16 = .ok (.lisp 3 16) ∧
    decode 0x0705#16 0x0000#16 = .ok (.dlb 15 0x05#8) ∧ decode 0x41C2#16 0x0000#16 = .ok (.cbx 13 2) ∧
    decode 0x74FE#16 0x0000#16 = .ok (.br 0xFE#8) ∧ decode 0x4810#16 0x2000#16 = .ok (.xio 1 0 0x2000#16) ∧
    decode 0x7703#16 0x0000#16 = .ok (.bex 3) ∧ decode 0x7D00#16 0x0400#16 = .ok (.lst 0 0x0400#16) ∧
    decode 0xFF00#16 0x0000#16 = .ok .nop

/-- Decoding the encoding of a well-formed instruction gives it back, whatever follows it. -/
def Obligations.DecodeInvertsEncode : Prop :=
  ∀ (i : Instr) (rest : List Word), i.wellFormed = true → decodeWords (encode i ++ rest) = .ok (i, rest)

/-- What a first word (and the word after it) decodes to is well formed and encodes to the words it was read from.
Rests on the choices of log 115. -/
def Obligations.EncodeInvertsDecode : Prop :=
  ∀ (w0 w1 : Word) (i : Instr), decode w0 w1 = .ok i →
    i.wellFormed = true ∧ encode i = if i.words = 2 then [w0, w1] else [w0]

/-- The first words that the decoder refuses are the reserved ones of the table; opcode 4F is BIF and decodes. Rests on
the choices of log 115. -/
def Obligations.DecodeRefusesReservedWords : Prop :=
  ∀ w0 w1 : Word, (∃ e, decode w0 w1 = .error e) ↔
    (w0.toNat / 256 ∈ [0x44, 0x45, 0x46, 0x47, 0x4B, 0x4C, 0x4D, 0x4E, 0x5B, 0x5D, 0x5F, 0x64, 0x69, 0x95, 0xAD, 0xAE, 0xAF,
        0xBD, 0xBE, 0xBF, 0xCC, 0xCD, 0xCE, 0xCF, 0xDC, 0xDD, 0xDE, 0xDF, 0xEE, 0xEF, 0xF5, 0xFC, 0xFD, 0xFE]) ∨
      (w0.toNat / 256 = 0x4A ∧ (w0.toNat % 16 = 0 ∨ 12 ≤ w0.toNat % 16)) ∨
      (w0.toNat / 256 = 0xFF ∧ w0.toNat % 256 ≠ 0x00 ∧ w0.toNat % 256 ≠ 0xFF) ∨
      (w0.toNat / 256 ∈ [0x77, 0x7C, 0x7D] ∧ w0.toNat / 16 % 16 ≠ 0) ∨
      (w0.toNat / 256 ∈ [0x7F, 0xEC] ∧ w0.toNat % 16 ≠ 0)

/-! ## The step (60_exceptions R760, R770) -/

/-- When the words at IC decode to an instruction, a step of a running processor is its execution with IC past it, then
the boundary; a turn of the environment comes before each of the words. A turn that ends the step ends it. Rests on the
choices of log 6. -/
def Obligations.StepRunsDecodedInstruction : Prop :=
  ∀ s : State,
    (∀ o, takeTurn s = .error o → step s = o) ∧
    ∀ (u : State) (w0 w1 : Word) (i : Instr), takeTurn s = .ok u → u.halted = false →
      readNow (fetchAccess u) u.ic u = .ok w0 → decode w0 w1 = .ok i →
      (i.words = 1 → step s = match exec i { u with ic := u.ic + 1 } with
        | .next t => boundary t
        | .fault f => .fault f
        | .refused r => .refused r) ∧
      (i.words = 2 → ∀ v, takeTurn { u with ic := u.ic + 1 } = .ok v → readNow (fetchAccess v) (u.ic + 1) v = .ok w1 →
        step s = match exec i { v with ic := u.ic + 2 } with
          | .next t => boundary t
          | .fault f => .fault f
          | .refused r => .refused r)

/-- What a fetch that gives no instruction does. A reserved first word takes the illegal instruction fault with IC past
that one word. A fault of the fetch of word k of an instruction abandons it with IC at IC0 + k + 1 and the fault's
effects. Rests on the choices of logs 6, 113 and 116. -/
def Obligations.FetchFaultsAndIllegalWordsTrap : Prop :=
  ∀ s u : State, takeTurn s = .ok u → u.halted = false →
    (∀ w0, readNow (fetchAccess u) u.ic u = .ok w0 → (∀ w1, ∃ e, decode w0 w1 = .error e) →
      step s = boundary (raiseFault 9 { u with ic := u.ic + 1 })) ∧
    (∀ v, readNow (fetchAccess u) u.ic u = .error v → step s = boundary { v with ic := u.ic + 1 }) ∧
    ∀ x v w0 w1 i, readNow (fetchAccess u) u.ic u = .ok w0 → decode w0 w1 = .ok i → i.words = 2 →
      takeTurn { u with ic := u.ic + 1 } = .ok x → readNow (fetchAccess x) (u.ic + 1) x = .error v →
      step s = boundary { v with ic := u.ic + 2 }

/-- A halted processor executes nothing: the step is the turn of the environment alone. The boundary of an instruction
that halted it (BPT) takes no interrupt; it performs the delayed enable and releases the bits that SPI holds back, as
the boundary after any instruction does. Rests on the choices of logs 6, 13 and 140. -/
def Obligations.HaltedStepTakesEventsOnly : Prop :=
  ∀ s u : State, takeTurn s = .ok u → u.halted = true →
    step s = .next u ∧ boundary s = .next { delayedEnable u with piHold := 0x0000#16 }

/-- Only the loss of power stops the machine: no step is refused, and a fault comes from that event in the schedule.
Rests on the choices of logs 6 and 24. -/
def Obligations.StepStopsOnlyOnPowerLoss : Prop :=
  ∀ s : State,
    (∀ f, step s = .fault f → f = .powerOff ∧ ∃ es ∈ s.env, Event.powerLoss ∈ es) ∧ ∀ r, step s ≠ .refused r

/-! ## Invariants and rules of the whole machine -/

/-- Every step keeps a good state good, and no step changes an implementation parameter. Rests on the choices of logs
2, 3, 12 and 14. -/
def Obligations.StepKeepsGoodState : Prop :=
  ∀ s t : State, step s = .next t → t.cfg = s.cfg ∧ (Good s → Good t)

/-- The machine right after reset is good, whatever its parameters. Rests on the choices of logs 2, 3 and 12. -/
def Obligations.ResetStateIsGood : Prop := ∀ c : Config, Good (State.resetWith c)

/-- An instruction other than BEX and an implemented Built-In-Function, executed with PS other than 0 while the
environment does nothing, keeps PS, AS, MK, IE, the page registers and every other system register but two: the memory
fault status, which a memory fault captures, and HALTED, which BPT sets. FT and PI may gain bits; it clears no FT bit
and no PI bit but 3, 4 and 6. It changes memory only where an operand write of the program passes the checks. Rests on
the choices of logs 3, 6, 8, 12, 127 and 140. -/
def Obligations.UnprivilegedInstructionIsConfined : Prop :=
  ∀ (i : Instr) (s t : State), psOf s.sw ≠ 0x0#4 → (∀ n, i ≠ .bex n) → (∀ x, i = .bif x → s.cfg.bifSet.lookup x = none) →
    (∀ es ∈ s.env, es = []) → Memory.wf s.mem = true → exec i s = .next t →
    t = { s with
      regs := t.regs, ic := t.ic, sw := t.sw, ft := t.ft, pi := t.pi, mfsr := t.mfsr, halted := t.halted, mem := t.mem,
      draws := t.draws, env := t.env } ∧
    KeepsStatus s t ∧ s.ft &&& t.ft = s.ft ∧ (s.pi &&& 0xE5FF#16) &&& t.pi = s.pi &&& 0xE5FF#16 ∧
    ∀ b, Memory.readByte t.mem b ≠ Memory.readByte s.mem b →
      ∃ a, Writable s a ∧ (b = 2 * (physOf s a).toNat ∨ b = 2 * (physOf s a).toNat + 1)

/-- The values that Table VI gives: in the state right after a power up reset, for every set of parameters; after a
system reset of a running machine, with memory and the normal power up discrete as they were; after a power up, with
the memory the environment supplies and the discrete set. A reset in a turn of the environment, also in the middle of
an instruction, ends the step in that state; the events after it wait until the boundary that ends the step is over.
Rests on the choices of logs 2, 6, 15, 103 and 142. -/
def Obligations.ResetHoldsTabulatedValues : Prop :=
  let tabulated : State → Prop := fun t =>
    t.ic = 0x0000#16 ∧ t.sw = 0x0000#16 ∧ t.ft = 0x0000#16 ∧ t.pi = 0x0000#16 ∧ t.mask = 0x0000#16 ∧ t.ie = false ∧
      t.enblPending = false ∧ t.piHold = 0x0000#16 ∧ t.halted = false ∧ t.dout = 0x0000#16 ∧
      t.timers = { ta := 0x0000#16, tb := 0x0000#16, taRun := true, tbRun := true } ∧ t.romEn = true ∧ t.dmaEn = false ∧
      t.goRun = true ∧ t.mprotEn = false ∧ (∀ k, t.mprot.get k = 0x0000#16) ∧
      (∀ (kind : RefKind) (g y : BitVec 4), pageRegister t kind g y = y.zeroExtend 16) ∧
      ∀ (a : Access) (l : Word), translate t a l = l.zeroExtend 20
  (∀ c : Config, tabulated (State.resetWith c) ∧ (State.resetWith c).npu = true) ∧
  ∀ s : State,
    (∃ t, applyEvent .systemReset s = some t ∧ tabulated t ∧ t.mem = s.mem ∧ t.npu = s.npu ∧ t.cfg = s.cfg) ∧
    (∀ image, ∃ t, applyEvent (.powerUp image) s = some t ∧ tabulated t ∧ t.mem = Memory.ofImage image ∧ t.npu = true ∧
      t.cfg = s.cfg) ∧
    ∀ e es later, s.env = (e :: es) :: later → (e = .systemReset ∨ ∃ image, e = .powerUp image) →
      ∃ t, applyEvent e { s with env := later } = some t ∧
        takeTurn s = .error (.next { t with env := [] :: es :: later }) ∧
        boundary { t with env := [] :: es :: later } = .next { t with env := es :: later }

/-! ## Faults and interrupts (60_exceptions) -/

/-- A fault sets its FT bit and PI bit 1, and nothing else; a bit that is not implemented, nothing at all. External
requests set pending bits whatever MK and IE hold: power down and the spare interrupts; an I/O channel sets bit 12 or
14 and writes a code register that is not frozen; the platform sets its own fault bits. Rests on the choices of logs 23
and 141. -/
def Obligations.FaultsAndRequestsBecomePending : Prop :=
  (∀ (k n : BitNo) (s : State),
    (bitAt s.cfg.ftImplemented k = true →
      raiseFault k s = { s with ft := (raiseFault k s).ft, pi := (raiseFault k s).pi } ∧
        bitAt (raiseFault k s).ft n = (decide (n = k) || bitAt s.ft n) ∧
        bitAt (raiseFault k s).pi n = (decide (n = 1) || bitAt s.pi n)) ∧
      (bitAt s.cfg.ftImplemented k = false → raiseFault k s = s)) ∧
  ∀ s : State,
    (∀ n ∈ [(0 : BitNo), 2, 8, 10, 11, 13, 15],
      applyEvent (.request n) s = some { s with pi := s.pi ||| bitMask n }) ∧
    (∀ n ∉ [(0 : BitNo), 2, 8, 10, 11, 13, 15], applyEvent (.request n) s = some s) ∧
    (∀ c, applyEvent (.ioRequest false c) s = some { s with
      pi := s.pi ||| bitMask 12
      ioic := { s.ioic with code1 := if s.cfg.ioic = true ∧ s.ioic.frozen1 = false then c else s.ioic.code1 } }) ∧
    (∀ c, applyEvent (.ioRequest true c) s = some { s with
      pi := s.pi ||| bitMask 14
      ioic := { s.ioic with code2 := if s.cfg.ioic = true ∧ s.ioic.frozen2 = false then c else s.ioic.code2 } }) ∧
    ∀ k, applyEvent (.platformFault k) s = some (if k ∈ [(3 : BitNo), 4, 6, 13, 14, 15] then raiseFault k s else s)

/-- Which pending interrupt can be taken: 0 and 5 always, 1 by its mask bit, the others by their mask bit and IE, none
that is held back by SPI. MK bits 0 and 5 are stored and read back but never consulted. Rests on the choices of log
106. -/
def Obligations.EligibleFollowsMaskAndEnable : Prop :=
  ∀ (s : State) (n : BitNo) (w : Word),
    (eligible s n = true ↔
      bitAt s.pi n = true ∧ bitAt s.piHold n = false ∧
        (n = 0 ∨ n = 5 ∨ (n = 1 ∧ bitAt s.mask 1 = true) ∨
          (n ≠ 0 ∧ n ≠ 1 ∧ n ≠ 5 ∧ bitAt s.mask n = true ∧ s.ie = true))) ∧
    (outputEffect .smk w s).mask = w ∧ (inputEffect .rmk s).1 = s.mask ∧
    ((∀ k : BitNo, k ≠ 0 → k ≠ 5 → bitAt w k = bitAt s.mask k) → eligible { s with mask := w } n = eligible s n)

/-- The boundary, after a turn of the environment: first the delayed enable, then the eligible interrupt of the
smallest number is taken; the bits that SPI holds back are released. Rests on the choices of logs 6, 12, 106 and 131. -/
def Obligations.BoundaryTakesSmallestEligible : Prop :=
  ∀ b s u : State, takeTurn b = .ok s →
    u = (if s.enblPending = true ∧ s.enblIssued = false then { s with ie := true, enblPending := false }
      else { s with enblIssued := false }) →
    s.halted = false →
    (∀ n : BitNo, eligible u n = true → (∀ k : BitNo, k < n → eligible u k = false) →
      boundary b = interruptSequence n { u with piHold := 0x0000#16 }) ∧
      ((∀ n : BitNo, eligible u n = false) → boundary b = .next { u with piHold := 0x0000#16 })

/-- The interrupt sequence, the environment doing nothing meanwhile, with every reference good: PI bit n is cleared,
the I/O interrupt code of levels 1 and 2 is frozen, MK, SW and IC are saved in the linkage area and replaced from the
service area, interrupts are disabled. Also when its references fault it ends, and changes only memory, MK, SW, IC, PI,
FT, the memory fault status and the frozen marks, clears no FT bit, and disables interrupts. Rests on the choices of
logs 6, 25, 102, 132 and 139. -/
def Obligations.InterruptSequenceSavesAndLoads : Prop :=
  (∀ (n : BitNo) (s : State) (svp m w i lp : Word), Memory.wf s.mem = true → QuietFor 8 s →
    VectorReads n 0x0000#16 svp m w i lp s → LinkageWritable w lp s →
    Completes (interruptSequence n s) (VectorTaken m w i lp
      { s with
        pi := s.pi &&& ~~~bitMask n
        ioic := { s.ioic with
          frozen1 := s.ioic.frozen1 || decide (n = 12), frozen2 := s.ioic.frozen2 || decide (n = 14) }
        env := s.env.drop 8 })) ∧
  ∀ (n : BitNo) (s : State), QuietFor 8 s → Completes (interruptSequence n s) fun t =>
    t = { s with
      mem := t.mem, mask := t.mask, sw := t.sw, ic := t.ic, pi := t.pi, ft := t.ft, mfsr := t.mfsr, ioic := t.ioic,
      draws := t.draws, ie := false, enblPending := false, enblIssued := false, env := s.env.drop 8 } ∧
    t.ioic.code1 = s.ioic.code1 ∧ t.ioic.code2 = s.ioic.code2 ∧ s.ft &&& t.ft = s.ft

/-- BEX enters the executive through vector 5 at the entry N, also with PS other than 0; PI is unchanged. Rests on the
choices of logs 6, 102, 132 and 133. -/
def Obligations.BexEntersExecutive : Prop :=
  ∀ (n : Fin 16) (s : State) (svp m w i lp : Word), Memory.wf s.mem = true → QuietFor 8 s →
    VectorReads 5 (BitVec.ofNat 16 n.val) svp m w i lp s → LinkageWritable w lp s →
    Completes (exec (.bex n) s) (VectorTaken m w i lp (afterTurns 8 s))

/-- LST and LSTI load MK, SW and IC from three words; an address state that is not implemented is loaded and raises
Fault 11. Rests on the choices of logs 6, 101 and 102. -/
def Obligations.LoadStatusLoadsThreeWords : Prop :=
  ∀ (s s0 s1 s2 s3 : State) (rx : Reg) (addr a m w i : Word), psOf s.sw = 0x0#4 → load a s0 = .ok (m, s1) →
    load (a + 1) s1 = .ok (w, s2) → load (a + 2) s2 = .ok (i, s3) →
    let loaded : State → Prop := fun t =>
      if groupImplemented s.cfg (asOf w) = true then t = { s3 with mask := m, sw := w, ic := i }
      else t = raiseFault 11 { s3 with mask := m, sw := w, ic := i }
    (s0 = s → a = daLong rx addr s → Completes (exec (.lst rx addr) s) loaded) ∧
      (daIndirect rx addr s = .ok (a, s0) → Completes (exec (.lsti rx addr) s) loaded)

/-- LST at the linkage pointer, executed in the state an interrupt sequence leaves, restores MK, SW and IC. Rests on
the choices of logs 6, 101 and 132. -/
def Obligations.LstUndoesInterruptSequence : Prop :=
  ∀ (n : BitNo) (s : State) (svp m w i lp : Word), Memory.wf s.mem = true → QuietFor 11 s → psOf w = 0x0#4 →
    VectorReads n 0x0000#16 svp m w i lp s → LinkageWritable w lp s →
    (∀ k, k < 3 → refFault s .cpu (linkageAccess w) false (lp + BitVec.ofNat 16 k) = none ∧
      romWord s (linkageWord w lp s k) = none) →
    Completes (interruptSequence n s) fun u => Completes (exec (.lst 0 lp) u) fun t =>
      t.mask = s.mask ∧ t.sw = s.sw ∧ t.ic = s.ic ∧ t.regs = s.regs

/-- The four privileged instructions with PS other than 0 raise Fault 10 and do nothing else. Rests on the choices of
log 134. -/
def Obligations.PrivilegedInstructionsTrap : Prop :=
  ∀ (s : State) (ra rx : Reg) (addr : Word), psOf s.sw ≠ 0x0#4 →
    exec (.xio ra rx addr) s = .next (raiseFault 10 s) ∧ exec (.vio ra rx addr) s = .next (raiseFault 10 s) ∧
      exec (.lst rx addr) s = .next (raiseFault 10 s) ∧ exec (.lsti rx addr) s = .next (raiseFault 10 s)

/-- Timer ticks: a running timer of a processor that is not halted counts modulo 2^16 and requests its interrupt when
it rolls over to zero, here over k ticks. A stopped timer, a halted processor, a machine without timers: a tick changes
nothing. -/
def Obligations.TimersCountAndRequest : Prop :=
  (∀ s, applyEvent .tickA s = some (tickTimerA s) ∧ applyEvent .tickB s = some (tickTimerB s)) ∧
  (∀ (s : State) (k : Nat), s.cfg.timers = true → s.halted = false → k ≤ 65536 →
    (s.timers.taRun = true →
      tickTimerA^[k] s = { s with
        timers := { s.timers with ta := s.timers.ta + BitVec.ofNat 16 k },
        pi := if 65536 ≤ s.timers.ta.toNat + k then s.pi ||| bitMask 7 else s.pi }) ∧
      (s.timers.tbRun = true →
        tickTimerB^[k] s = { s with
          timers := { s.timers with tb := s.timers.tb + BitVec.ofNat 16 k },
          pi := if 65536 ≤ s.timers.tb.toNat + k then s.pi ||| bitMask 9 else s.pi })) ∧
  ∀ s : State,
    (s.cfg.timers = false ∨ s.halted = true ∨ s.timers.taRun = false → applyEvent .tickA s = some s) ∧
      (s.cfg.timers = false ∨ s.halted = true ∨ s.timers.tbRun = false → applyEvent .tickB s = some s)

/-! ## Memory references (20_memory) -/

/-- The derived addresses: D and DX add the index register modulo 2^16, none for RX = 0; I and IX read the pointer word
there; B adds the displacement as an unsigned byte; BX adds base and index; ICR adds the signed displacement to the
address of the instruction itself. -/
def Obligations.DerivedAddressesAreSumsModulo : Prop :=
  ∀ (s : State) (rx br : Reg) (addr : Word) (x : Byte),
    (daLong rx addr s).toNat = (addr.toNat + if rx = 0 then 0 else (s.reg rx).toNat) % 65536 ∧
      daIndirect rx addr s = load (daLong rx addr s) s ∧
      (daBase br x s).toNat = ((s.reg br).toNat + x.toNat) % 65536 ∧
      (daBaseIndexed br rx s).toNat = ((s.reg br).toNat + if rx = 0 then 0 else (s.reg rx).toNat) % 65536 ∧
      ((daIcRelative x s).toNat : Int) = ((s.ic.toNat : Int) - 1 + x.toInt) % 65536

/-- Address translation and the checks of a reference, for every parameter set, and which fault wins. The page register
is that of the reference's set and group named by the four top address bits, the identity for a group that is not
implemented; without expanded memory there is none and the address is extended with zeros. The first that holds
decides: the key does not open the lock; an instruction page is execute protected; a write to a write protected page; a
write to a protected block, which is a bit of the agent's half of the memory protect RAM (1024 words a bit) or, before
the RAM is enabled, every block as the parameter says; an absent word; a read with a parity error. Rests on the choices
of logs 11, 102, 108, 111 and 112. -/
def Obligations.ReferencePassesExactlyWhenAllowed : Prop :=
  ∀ (s : State) (g : Agent) (a : Access) (wr : Bool) (l : Word),
    let file : Vector Word 16 := match a.kind with
      | .instr => (s.pages.get a.group.toFin).instr
      | .oper => (s.pages.get a.group.toFin).oper
    let page : Expanded → Word := fun x =>
      if a.group.toNat < x.groups.toNat then file.get (Fin.ofNat 16 (l.toNat / 4096)) else BitVec.ofNat 16 (l.toNat / 4096)
    let p := (translate s a l).toNat
    let half := match g with
      | .cpu => 0
      | .dma => 64
    let locked := ∃ x, s.cfg.expanded = some x ∧ x.lockKey = true ∧
      ¬(a.key.toNat = 0 ∨ (page x).toNat / 4096 = 15 ∨ (page x).toNat / 4096 = a.key.toNat)
    let noExecute := ∃ x, s.cfg.expanded = some x ∧ a.kind = .instr ∧ bitAt (page x) 4 = true
    let noWrite := ∃ x, s.cfg.expanded = some x ∧ a.kind = .oper ∧ wr = true ∧ bitAt (page x) 4 = true
    let blocked := wr = true ∧ s.cfg.memProtectRam = true ∧
      ((s.mprotEn = false ∧ s.cfg.mprotResetGlobal = true) ∨
        (s.mprotEn = true ∧ bitAt (s.mprot.get (Fin.ofNat 128 (half + p / 16384))) (Fin.ofNat 16 (p / 1024 % 16)) = true))
    let absent := (s.cfg.expanded = none ∧ 65536 ≤ p) ∨ ∃ r ∈ s.cfg.absent, r.1 ≤ p ∧ p < r.1 + r.2
    let parity := wr = false ∧ s.cfg.parity = true ∧ p ∈ s.parityBad
    p = (match s.cfg.expanded with
      | none => l.toNat
      | some x => (page x).toNat % 256 * 4096 + l.toNat % 4096) ∧
    (locked → refFault s g a wr l = some .access) ∧
    (¬locked → noExecute → refFault s g a wr l = some .executeProtect) ∧
    (¬locked → noWrite → refFault s g a wr l = some .writeProtect) ∧
    (¬locked → ¬noExecute → ¬noWrite →
      (blocked → refFault s g a wr l = some .writeProtect) ∧
      (¬blocked → absent → refFault s g a wr l = some .illegalAddress) ∧
      (¬blocked → ¬absent → parity → refFault s g a wr l = some .parity) ∧
      (¬blocked → ¬absent → ¬parity → refFault s g a wr l = none))

/-- Reading an operand word. A turn of the environment comes first, before any word reference; it changes no general
register, no other register of the CPU's own and no enable, and clears no FT or PI bit. Then the word is that in the
start-up ROM when it is implemented, enabled and holds the address, else the word in memory; a reference that does not
pass leaves its fault (FT bit 8 for an absent word, 2 for parity, else 0) and reads nothing. Rests on the choices of
logs 3, 6, 104, 112 and 113. -/
def Obligations.LoadReadsMemoryOrFaults : Prop :=
  ∀ (s : State) (a : Word),
    (∀ o, takeTurn s = .error o → load a s = .error o) ∧
    ∀ u, takeTurn s = .ok u →
      (u.regs = s.regs ∧ u.ic = s.ic ∧ u.sw = s.sw ∧ u.mask = s.mask ∧ u.ie = s.ie ∧ u.enblPending = s.enblPending ∧
        u.piHold = s.piHold ∧ u.pages = s.pages ∧ u.mprot = s.mprot ∧ u.mprotEn = s.mprotEn ∧ u.romEn = s.romEn ∧
        u.dmaEn = s.dmaEn ∧ u.npu = s.npu ∧ u.dout = s.dout ∧ u.pobuf = s.pobuf ∧ u.cfg = s.cfg ∧ s.ft &&& u.ft = s.ft ∧
        s.pi &&& u.pi = s.pi) ∧
      (∀ f, refFault u .cpu (operAccess u) false a = some f → ∃ t, load a s = .error (.next t) ∧
        RefFaulted (if f = .illegalAddress then 8 else if f = .parity then 2 else 0) (operAccess u) a u t) ∧
      (refFault u .cpu (operAccess u) false a = none →
        (∀ rom w, u.cfg.rom = some rom → u.romEn = true → (physOf u a).toNat < 65536 →
          rom[(physOf u a).toNat]? = some w → load a s = .ok (w, u)) ∧
        (u.cfg.rom = none ∨ u.romEn = false ∨ 65536 ≤ (physOf u a).toNat ∨
            (∀ rom, u.cfg.rom = some rom → rom.length ≤ (physOf u a).toNat) →
          load a s = .ok (Memory.readWord u.mem (physOf u a), u)))

/-- A word stored is read back, and no byte outside it changes; the store goes to memory also under the start-up ROM. A
turn of the environment comes before it. Rests on the choices of logs 3 and 6. -/
def Obligations.StoreThenReadGivesStoredWord : Prop :=
  ∀ (s u : State) (a v : Word), Memory.wf s.mem = true → takeTurn s = .ok u → Writable u a →
    ∃ t, store a v s = .ok t ∧ t = { u with mem := t.mem } ∧ Memory.wf t.mem = true ∧ StoresAt a [v] u t

/-- A fault of an operand or pointer read, or an event that ends the step, ends the instruction there: nothing more of
it happens. The operand or the pointer of every form; the operand behind a pointer; the later words of operands of two
and three words; the words of LST and LSTI, of MOV and of the header of VIO; LM and POPM, whose earlier words are
loaded. Rests on the choices of logs 6, 104, 110, 113 and 122. -/
def Obligations.FaultingReadAbandonsInstruction : Prop :=
  (∀ (s : State) (o : Out),
    (∀ (ra rx : Reg) (addr : Word), load (daLong rx addr s) s = .error o →
      ∀ i ∈ [Instr.l ra rx addr, .li ra rx addr, .lub ra rx addr, .llb ra rx addr, .lubi ra rx addr, .llbi ra rx addr,
          .dl ra rx addr, .dli ra rx addr, .efl ra rx addr, .lm ra rx addr, .a ra rx addr, .s ra rx addr, .da ra rx addr,
          .ds ra rx addr, .ms ra rx addr, .m ra rx addr, .dm ra rx addr, .dv ra rx addr, .d ra rx addr, .dd ra rx addr,
          .fa ra rx addr, .fs ra rx addr, .fm ra rx addr, .fd ra rx addr, .efa ra rx addr, .efs ra rx addr, .efm ra rx addr,
          .efd ra rx addr, .fc ra rx addr, .efc ra rx addr, .or ra rx addr, .and ra rx addr, .xor ra rx addr, .n ra rx addr,
          .c ra rx addr, .dc ra rx addr, .cbl ra rx addr, .sb ra rx addr, .sbi ra rx addr, .rb ra rx addr, .rbi ra rx addr,
          .tb ra rx addr, .tbi ra rx addr, .tsb ra rx addr, .sti ra rx addr, .stci ra rx addr, .dsti ra rx addr,
          .srm ra rx addr, .stub ra rx addr, .stlb ra rx addr, .subi ra rx addr, .slbi ra rx addr,
          .incm ra.val rx addr, .decm ra.val rx addr, .jci (BitVec.ofFin ra) rx addr],
        exec i s = o) ∧
    (∀ (br : Reg) (x : Byte), load (daBase br x s) s = .error o →
      ∀ i ∈ [Instr.lb br x, .dlb br x, .ab br x, .sbb br x, .mb br x, .db br x, .fab br x, .fsb br x, .fmb br x, .fdb br x,
          .orb br x, .andb br x, .cb br x, .fcb br x],
        exec i s = o) ∧
    (∀ br rx : Reg, load (daBaseIndexed br rx s) s = .error o →
      ∀ i ∈ [Instr.lbx br rx, .dlbx br rx, .abx br rx, .sbbx br rx, .mbx br rx, .dbx br rx, .fabx br rx, .fsbx br rx,
          .fmbx br rx, .fdbx br rx, .orbx br rx, .andx br rx, .cbx br rx, .fcbx br rx],
        exec i s = o) ∧
    (∀ ra : Reg, load (s.reg ra) s = .error o → exec (.urs ra) s = o) ∧
    (∀ ra rb : Reg, s.reg (ra + 1) ≠ 0x0000#16 → load (s.reg rb) s = .error o → exec (.mov ra rb) s = o) ∧
    (∀ (ra rx : Reg) (addr : Word), psOf s.sw = 0x0#4 → load (daLong rx addr s) s = .error o →
      exec (.lst rx addr) s = o ∧ exec (.lsti rx addr) s = o ∧ exec (.vio ra rx addr) s = o)) ∧
  (∀ (s u : State) (o : Out) (ra rx : Reg) (addr a : Word), daIndirect rx addr s = .ok (a, u) →
    (load a u = .error o →
      (∀ i ∈ [Instr.li ra rx addr, .dli ra rx addr, .lubi ra rx addr, .llbi ra rx addr, .sbi ra rx addr, .rbi ra rx addr,
          .tbi ra rx addr, .subi ra rx addr, .slbi ra rx addr], exec i s = o) ∧
      (psOf s.sw = 0x0#4 → exec (.lsti rx addr) s = o)) ∧
    (∀ d v, load a u = .ok (d, v) → load (a + 1) v = .error o → exec (.dli ra rx addr) s = o ∧
      (psOf s.sw = 0x0#4 → exec (.lsti rx addr) s = o)) ∧
    ∀ d v, load2 a u = .ok (d, v) → load (a + 2) v = .error o → psOf s.sw = 0x0#4 → exec (.lsti rx addr) s = o) ∧
  (∀ (s u : State) (o : Out) (a d : Word), load a s = .ok (d, u) → load (a + 1) u = .error o →
    (∀ (ra rx : Reg) (addr : Word), a = daLong rx addr s →
      (∀ i ∈ [Instr.dl ra rx addr, .efl ra rx addr, .da ra rx addr, .ds ra rx addr, .dm ra rx addr, .dd ra rx addr,
          .fa ra rx addr, .fs ra rx addr, .fm ra rx addr, .fd ra rx addr, .efa ra rx addr, .efs ra rx addr, .efm ra rx addr,
          .efd ra rx addr, .fc ra rx addr, .efc ra rx addr, .dc ra rx addr, .cbl ra rx addr], exec i s = o) ∧
      (psOf s.sw = 0x0#4 → exec (.lst rx addr) s = o ∧ exec (.vio ra rx addr) s = o)) ∧
    (∀ (br : Reg) (x : Byte), a = daBase br x s →
      ∀ i ∈ [Instr.dlb br x, .fab br x, .fsb br x, .fmb br x, .fdb br x, .fcb br x], exec i s = o) ∧
    ∀ br rx : Reg, a = daBaseIndexed br rx s →
      ∀ i ∈ [Instr.dlbx br rx, .fabx br rx, .fsbx br rx, .fmbx br rx, .fdbx br rx, .fcbx br rx], exec i s = o) ∧
  (∀ (s u : State) (o : Out) (ra rx : Reg) (addr : Word) (d : DWord), load2 (daLong rx addr s) s = .ok (d, u) →
    load (daLong rx addr s + 2) u = .error o →
    (∀ i ∈ [Instr.efl ra rx addr, .efa ra rx addr, .efs ra rx addr, .efm ra rx addr, .efd ra rx addr, .efc ra rx addr],
      exec i s = o) ∧
    (psOf s.sw = 0x0#4 → exec (.lst rx addr) s = o)) ∧
  (∀ (s : State) (n : Fin 16) (rx : Reg) (addr : Word) (ws : Nat → Word) (k : Nat) (f : RefFault), k ≤ n.val →
    QuietFor (k + 1) s → (∀ j, j < k → Reads s (daLong rx addr s + BitVec.ofNat 16 j) (ws j)) →
    refFault s .cpu (operAccess s) false (daLong rx addr s + BitVec.ofNat 16 k) = some f →
    Completes (exec (.lm n rx addr) s) fun t =>
      RefFaulted (if f = .illegalAddress then 8 else if f = .parity then 2 else 0) (operAccess s)
        (daLong rx addr s + BitVec.ofNat 16 k) { s with regs := t.regs, env := s.env.drop (k + 1) } t ∧
      ∀ r : Reg, t.reg r = if r.val < k then ws r.val else s.reg r) ∧
  ∀ (s : State) (ra rb : Reg) (ws : Nat → Word) (r : Reg) (f : RefFault), r ≠ 15 → (r - ra).val ≤ (rb - ra).val →
    QuietFor ((r - ra).val + 1) s →
    (∀ q : Reg, q ≠ 15 → (q - ra).val < (r - ra).val →
      Reads s (s.reg 15 + BitVec.ofNat 16 (q - ra).val) (ws (q - ra).val)) →
    refFault s .cpu (operAccess s) false (s.reg 15 + BitVec.ofNat 16 (r - ra).val) = some f →
    Completes (exec (.popm ra rb) s) fun t =>
      RefFaulted (if f = .illegalAddress then 8 else if f = .parity then 2 else 0) (operAccess s)
        (s.reg 15 + BitVec.ofNat 16 (r - ra).val) { s with regs := t.regs, env := t.env } t ∧
      t.reg 15 = s.reg 15 + BitVec.ofNat 16 (r - ra).val ∧
      ∀ q : Reg, q ≠ 15 → t.reg q = if (q - ra).val < (r - ra).val then ws (q - ra).val else s.reg q

/-- Stores word by word: a word that does not pass is not stored and leaves its fault; a write protected one (FT bit 0)
does not end the instruction, another one (an absent word: FT bit 8) does, with the words before it stored. A
read-modify-write of a word that can be read but not written meets write protection: its store is suppressed and it
goes on, INCM and DECM to set CS and to request overflow, TSB with CS set, SJS to jump, MOV to count. Rests on the
choices of logs 6, 104, 109, 110 and 113. -/
def Obligations.FaultingStoreStoresNothing : Prop :=
  (∀ (s : State) (ra rx br : Reg) (addr : Word) (x : Byte) (n : Fin 16), Memory.wf s.mem = true →
    let two : Reg → List Word := fun r => [s.reg r, s.reg (r + 1)]
    StoresOneByOne (daLong rx addr s) [s.reg ra] s (exec (.st ra rx addr) s) ∧
    StoresOneByOne (daBase br x s) [s.reg 2] s (exec (.stb br x) s) ∧
    StoresOneByOne (daBaseIndexed br rx s) [s.reg 2] s (exec (.stbx br rx) s) ∧
    StoresOneByOne (daLong rx addr s) [BitVec.ofNat 16 n.val] s (exec (.stc n rx addr) s) ∧
    StoresOneByOne (daLong rx addr s) (two ra) s (exec (.dst ra rx addr) s) ∧
    StoresOneByOne (daBase br x s) (two 0) s (exec (.dstb br x) s) ∧
    StoresOneByOne (daBaseIndexed br rx s) (two 0) s (exec (.dstx br rx) s) ∧
    StoresOneByOne (daLong rx addr s) [s.reg ra, s.reg (ra + 1), s.reg (ra + 2)] s (exec (.efst ra rx addr) s) ∧
    StoresOneByOne (daLong rx addr s) ((List.range (n.val + 1)).map fun k => s.reg (Fin.ofNat 16 k)) s
      (exec (.stm n rx addr) s) ∧
    ∀ a u, daIndirect rx addr s = .ok (a, u) →
      StoresOneByOne a [s.reg ra] u (exec (.sti ra rx addr) s) ∧
      StoresOneByOne a [BitVec.ofNat 16 n.val] u (exec (.stci n rx addr) s) ∧
      StoresOneByOne a (two ra) u (exec (.dsti ra rx addr) s)) ∧
  (∀ (s s0 u v : State) (ra rx : Reg) (addr a d : Word) (f : RefFault), load a s0 = .ok (d, u) → takeTurn u = .ok v →
    refFault v .cpu (operAccess v) true a = some f →
    f = .writeProtect ∧
    (s0 = s → a = daLong rx addr s →
      (∀ i ∈ [Instr.sb ra rx addr, .rb ra rx addr, .srm ra rx addr, .stub ra rx addr, .stlb ra rx addr],
        Completes (exec i s) (RefFaulted 0 (operAccess v) a v)) ∧
      ∀ n : Nat, 1 ≤ n → n ≤ 16 →
        Completes (exec (.incm n rx addr) s) (fun t => ∃ w, RefFaulted 0 (operAccess v) a v w ∧
          StatusResult (signCS (d + BitVec.ofNat 16 n).toInt ||| carryCS (2 ^ 16 ≤ d.toNat + n)) { w with pi := t.pi } t ∧
          Pends 4 (Unrepresentable 16 (d.toInt + n)) w t) ∧
        Completes (exec (.decm n rx addr) s) (fun t => ∃ w, RefFaulted 0 (operAccess v) a v w ∧
          StatusResult (signCS (d - BitVec.ofNat 16 n).toInt ||| carryCS (n ≤ d.toNat)) { w with pi := t.pi } t ∧
          Pends 4 (Unrepresentable 16 (d.toInt - n)) w t)) ∧
    (daIndirect rx addr s = .ok (a, s0) →
      ∀ i ∈ [Instr.sbi ra rx addr, .rbi ra rx addr, .subi ra rx addr, .slbi ra rx addr],
        Completes (exec i s) (RefFaulted 0 (operAccess v) a v))) ∧
  (∀ (s u : State) (n : BitNo) (rx : Reg) (addr d : Word) (f : RefFault), load (daLong rx addr s) s = .ok (d, u) →
    bitAt d n = false → refFault u .cpu (operAccess u) true (daLong rx addr s) = some f →
    Completes (exec (.tsb n rx addr) s) fun t => ∃ w, StatusResult 0b0010#4 u w ∧
      RefFaulted 0 (operAccess u) (daLong rx addr s) w t) ∧
  (∀ (s u : State) (ra rx : Reg) (addr : Word) (f : RefFault), takeTurn s = .ok u →
    refFault u .cpu (operAccess u) true (s.reg ra - 1) = some f →
    Completes (exec (.sjs ra rx addr) s) fun t => ∃ w,
      RefFaulted (if f = .illegalAddress then 8 else 0) (operAccess u) (s.reg ra - 1) u w ∧ KeepsRegs [ra] s t ∧
        t.reg ra = s.reg ra - 1 ∧
        t = { w with
          regs := t.regs
          ic := if f = .writeProtect then daLong rx addr s else w.ic }) ∧
  ∀ (s u v : State) (ra rb : Reg) (d : Word) (f : RefFault), s.reg (ra + 1) ≠ 0x0000#16 →
    load (s.reg rb) s = .ok (d, u) → takeTurn u = .ok v → refFault v .cpu (operAccess v) true (s.reg ra) = some f →
    Completes (exec (.mov ra rb) s) fun t => ∃ w,
      RefFaulted (if f = .illegalAddress then 8 else 0) (operAccess v) (s.reg ra) v w ∧
      (f ≠ .writeProtect → t = w) ∧
      (f = .writeProtect → t = { w with regs := t.regs, ic := t.ic } ∧
        (∀ r, t.reg r = s.reg r + (if r = ra then 1 else 0) + (if r = rb then 1 else 0) - if r = ra + 1 then 1 else 0) ∧
        t.ic = if t.reg (ra + 1) = 0x0000#16 then s.ic else s.ic - 1)

/-- A device reference with DMA enabled: a mapped address is translated in the operand set of the device's group and
checked with the device's key; a physical address is not translated and is checked for its block and its presence. A
fault sets FT bit 8 for an absent word, bit 2 for parity, else bit 1 in place of bit 0, and the memory fault status.
With DMA disabled nothing happens. Rests on the choices of logs 16, 104, 109 and 111. -/
def Obligations.DeviceReferencesAreCheckedLikeOperands : Prop :=
  ∀ (s : State) (group key : BitVec 4) (l v : Word),
    let bit : RefFault → BitNo := fun f => if f = .illegalAddress then 8 else if f = .parity then 2 else 1
    let a : Access := { kind := .oper, group := group, key := key }
    ((s.cfg.dma = false ∨ s.dmaEn = false) → ∀ d op, applyEvent (.device d op) s = some s) ∧
    (s.cfg.dma = true → s.dmaEn = true →
      (∀ f op, refFault s .dma a op.isWrite l = some f →
        ∃ t, applyEvent (.device (.mapped group key l) op) s = some t ∧ RefFaulted (bit f) a l s t) ∧
      (refFault s .dma a true l = none → applyEvent (.device (.mapped group key l) (.write v)) s =
        some { s with mem := Memory.writeWord s.mem (translate s a l) v }) ∧
      (refFault s .dma a false l = none → applyEvent (.device (.mapped group key l) .read) s =
        some { s with outputs := .deviceData (physRead s (translate s a l)) :: s.outputs }) ∧
      ∀ p : PAddr,
        let blocked := s.cfg.memProtectRam = true ∧
          ((s.mprotEn = false ∧ s.cfg.mprotResetGlobal = true) ∨ (s.mprotEn = true ∧
            bitAt (s.mprot.get (Fin.ofNat 128 (64 + p.toNat / 16384))) (Fin.ofNat 16 (p.toNat / 1024 % 16)) = true))
        let absent := (s.cfg.expanded = none ∧ 65536 ≤ p.toNat) ∨ ∃ r ∈ s.cfg.absent, r.1 ≤ p.toNat ∧ p.toNat < r.1 + r.2
        let bad := s.cfg.parity = true ∧ p.toNat ∈ s.parityBad
        let faulted : BitNo → DeviceOp → Prop := fun k op => ∃ t, applyEvent (.device (.unmapped p) op) s = some t ∧
          t = { raiseFault k s with mfsr := t.mfsr } ∧
          MfsrShows (BitVec.ofNat 4 (if s.cfg.expanded.isSome then p.toNat / 65536 else p.toNat / 4096)) 0#1 0#4 s t
        (blocked → faulted 1 (.write v)) ∧ (¬blocked → absent → faulted 8 (.write v)) ∧ (absent → faulted 8 .read) ∧
          (¬absent → bad → faulted 2 .read) ∧
          (¬blocked → ¬absent → applyEvent (.device (.unmapped p) (.write v)) s =
            some { s with mem := Memory.writeWord s.mem p v }) ∧
          (¬absent → ¬bad → applyEvent (.device (.unmapped p) .read) s =
            some { s with outputs := .deviceData (physRead s p) :: s.outputs }))

/-! ## Bit instructions (41_bit) -/

/-- SBR, RBR, SVBR and RVBR set or clear one bit of RB and change nothing else, the variable bit number read first; SB,
SBI, RB and RBI do so with the word at DA: the word written is formed from the word read, whatever the environment
wrote there between the two references. Rests on the choices of logs 3 and 6. -/
def Obligations.BitSetAndClear : Prop :=
  (∀ (s : State) (n : BitNo) (ra rb : Reg) (m : BitNo) (c : BitNo), c.val = (s.reg ra).toNat % 16 →
    Completes (exec (.sbr n rb) s) (fun t => t = { s with regs := t.regs } ∧ KeepsRegs [rb] s t ∧
      bitAt (t.reg rb) m = (decide (m = n) || bitAt (s.reg rb) m)) ∧
    Completes (exec (.rbr n rb) s) (fun t => t = { s with regs := t.regs } ∧ KeepsRegs [rb] s t ∧
      bitAt (t.reg rb) m = (decide (m ≠ n) && bitAt (s.reg rb) m)) ∧
    Completes (exec (.svbr ra rb) s) (fun t => t = { s with regs := t.regs } ∧ KeepsRegs [rb] s t ∧
      bitAt (t.reg rb) m = (decide (m = c) || bitAt (s.reg rb) m)) ∧
    Completes (exec (.rvbr ra rb) s) (fun t => t = { s with regs := t.regs } ∧ KeepsRegs [rb] s t ∧
      bitAt (t.reg rb) m = (decide (m ≠ c) && bitAt (s.reg rb) m))) ∧
  ∀ (s s0 u v : State) (n : BitNo) (rx : Reg) (addr a d : Word), Memory.wf s.mem = true → load a s0 = .ok (d, u) →
    takeTurn u = .ok v → Writable v a →
    (s0 = s → a = daLong rx addr s →
      Completes (exec (.sb n rx addr) s) (fun t => ∃ w, StoreResult a [w] v t ∧
        ∀ m : BitNo, bitAt w m = (decide (m = n) || bitAt d m)) ∧
      Completes (exec (.rb n rx addr) s) (fun t => ∃ w, StoreResult a [w] v t ∧
        ∀ m : BitNo, bitAt w m = (decide (m ≠ n) && bitAt d m))) ∧
    (daIndirect rx addr s = .ok (a, s0) →
      Completes (exec (.sbi n rx addr) s) (fun t => ∃ w, StoreResult a [w] v t ∧
        ∀ m : BitNo, bitAt w m = (decide (m = n) || bitAt d m)) ∧
      Completes (exec (.rbi n rx addr) s) (fun t => ∃ w, StoreResult a [w] v t ∧
        ∀ m : BitNo, bitAt w m = (decide (m ≠ n) && bitAt d m)))

/-- TBR, TVBR, TB and TBI set CS alone: zero for a zero bit, negative for bit 0 set, positive for another bit set. TSB
does so from the old word and sets the bit, storing only when it was zero; no turn of the environment comes between its
read and its write. Rests on the choices of logs 3 and 6. -/
def Obligations.BitTestsSetStatus : Prop :=
  ∀ (s : State) (n : BitNo),
    let test : Word → BitNo → BitVec 4 := fun d k =>
      if bitAt d k = false then 0b0010#4 else if k = 0 then 0b0001#4 else 0b0100#4
    (∀ rb, Completes (exec (.tbr n rb) s) (StatusResult (test (s.reg rb) n) s)) ∧
    (∀ ra rb (c : BitNo), c.val = (s.reg ra).toNat % 16 →
      Completes (exec (.tvbr ra rb) s) (StatusResult (test (s.reg rb) c) s)) ∧
    (∀ rx addr, WithWordAt (daLong rx addr s) s (exec (.tb n rx addr) s) fun d => StatusResult (test d n)) ∧
    (∀ rx addr a u, daIndirect rx addr s = .ok (a, u) →
      WithWordAt a u (exec (.tbi n rx addr) s) fun d => StatusResult (test d n)) ∧
    ∀ rx addr d u, load (daLong rx addr s) s = .ok (d, u) →
      (bitAt d n = true → Completes (exec (.tsb n rx addr) s) (StatusResult (test d n) u)) ∧
      (bitAt d n = false → Memory.wf s.mem = true → Writable u (daLong rx addr s) →
        Completes (exec (.tsb n rx addr) s) (fun t => ∃ v,
          StoreStatusResult (daLong rx addr s) [v] 0b0010#4 False u t ∧
            ∀ m : BitNo, bitAt v m = (decide (m = n) || bitAt d m)))

/-! ## Shift instructions (42_shift) -/

/-- The shifts with a count of 1 to 16 in the instruction, of a register and of a register pair. -/
def Obligations.ImmediateShiftsPutShiftedValue : Prop :=
  ∀ (s : State) (rb : Reg) (n : Nat), 1 ≤ n → n ≤ 16 →
    Completes (exec (.sll rb n) s) (WordPut rb (shiftedLeft 16 (s.reg rb) n) s) ∧
    Completes (exec (.srl rb n) s) (WordPut rb (shiftedRight 16 (s.reg rb) n) s) ∧
    Completes (exec (.sra rb n) s) (WordPut rb (shiftedArithmetic 16 (s.reg rb) n) s) ∧
    Completes (exec (.slc rb n) s) (WordPut rb (rotatedLeft 16 (s.reg rb) n) s) ∧
    Completes (exec (.dsll rb n) s) (PairPut rb (shiftedLeft 32 (s.pair rb) n) s) ∧
    Completes (exec (.dsrl rb n) s) (PairPut rb (shiftedRight 32 (s.pair rb) n) s) ∧
    Completes (exec (.dsra rb n) s) (PairPut rb (shiftedArithmetic 32 (s.pair rb) n) s) ∧
    Completes (exec (.dslc rb n) s) (PairPut rb (rotatedLeft 32 (s.pair rb) n) s)

/-- The shifts by the signed count in RB: of a register by -16 to 16 positions (SLR, SAR, SCR), of a register pair by
-32 to 32 (DSLR, DSAR, DSCR). A count beyond the width requests fixed point overflow and does nothing else. Rests on
the choices of log 120. -/
def Obligations.RegisterCountShiftsPutShiftedValue : Prop :=
  (∀ (s : State) (ra rb : Reg), -16 ≤ (s.reg rb).toInt → (s.reg rb).toInt ≤ 16 →
    let n := (s.reg rb).toInt
    Completes (exec (.slr ra rb) s) (WordPut ra (shiftedBy (shiftedLeft 16) (shiftedRight 16) (s.reg ra) n) s) ∧
    Completes (exec (.scr ra rb) s) (WordPut ra (shiftedBy (rotatedLeft 16) (rotatedRight 16) (s.reg ra) n) s) ∧
    Completes (exec (.sar ra rb) s) (fun t =>
      let v := shiftedBy (shiftedLeft 16) (shiftedArithmetic 16) (s.reg ra) n
      WordResult ra v (signCS v.toInt) (0 < n ∧ Unrepresentable 16 ((s.reg ra).toInt * 2 ^ n.toNat)) s t)) ∧
  (∀ (s : State) (ra rb : Reg), -32 ≤ (s.reg rb).toInt → (s.reg rb).toInt ≤ 32 →
    let n := (s.reg rb).toInt
    Completes (exec (.dslr ra rb) s) (PairPut ra (shiftedBy (shiftedLeft 32) (shiftedRight 32) (s.pair ra) n) s) ∧
    Completes (exec (.dscr ra rb) s) (PairPut ra (shiftedBy (rotatedLeft 32) (rotatedRight 32) (s.pair ra) n) s) ∧
    Completes (exec (.dsar ra rb) s) (fun t =>
      let v := shiftedBy (shiftedLeft 32) (shiftedArithmetic 32) (s.pair ra) n
      PairResult ra v (signCS v.toInt) (0 < n ∧ Unrepresentable 32 ((s.pair ra).toInt * 2 ^ n.toNat)) s t)) ∧
  ∀ (s : State) (ra rb : Reg), let o : Out := .next { s with pi := s.pi ||| bitMask 4 }
    (((s.reg rb).toInt < -16 ∨ 16 < (s.reg rb).toInt) →
      exec (.slr ra rb) s = o ∧ exec (.sar ra rb) s = o ∧ exec (.scr ra rb) s = o) ∧
    (((s.reg rb).toInt < -32 ∨ 32 < (s.reg rb).toInt) →
      exec (.dslr ra rb) s = o ∧ exec (.dsar ra rb) s = o ∧ exec (.dscr ra rb) s = o)

/-! ## Jumps and branches (43_jump_branch) -/

/-- JC and JCI jump when C AND CS is not zero or C is 7 or F, JCI to the address in the pointer word; otherwise the
next instruction follows. When they do not jump nothing changes but what the environment does. -/
def Obligations.ConditionalJumpsFollowMask : Prop :=
  ∀ (s : State) (c : BitVec 4) (rx : Reg) (addr : Word),
    let taken := c = 0x7#4 ∨ c = 0xF#4 ∨ ∃ k, c.getLsbD k = true ∧ (csOf s.sw).getLsbD k = true
    (taken → exec (.jc c rx addr) s = .next { s with ic := daLong rx addr s }) ∧
      (¬taken → exec (.jc c rx addr) s = .next s) ∧
      ∀ a u, daIndirect rx addr s = .ok (a, u) →
        (taken → exec (.jci c rx addr) s = .next { u with ic := a }) ∧
          (¬taken → Completes (exec (.jci c rx addr) s) fun t =>
            t.ic = s.ic ∧ t.regs = s.regs ∧ t.sw = s.sw ∧ (QuietFor 1 s → t = { s with env := t.env }))

/-- The branches go to IC0 + D when the bits P Z N of CS are one of the patterns of their condition, and change nothing
but IC. JS, SOJ, SJS and URS: the return address, the counted jump, the stacked call and its return. Rests on the
choices of logs 3, 6 and 121. -/
def Obligations.BranchesAndCallsSetCounter : Prop :=
  (∀ (s : State) (d : Byte),
    let pzn := (csOf s.sw).toNat % 8
    let branch : Prop → Instr → Prop := fun c i =>
      (c → Completes (exec i s) fun t => t = { s with ic := t.ic } ∧
        (t.ic.toNat : Int) = ((s.ic.toNat : Int) - 1 + d.toInt) % 65536) ∧
      (¬c → exec i s = .next s)
    branch True (.br d) ∧ branch (pzn = 2) (.bez d) ∧ branch (pzn = 1) (.blt d) ∧ branch (pzn = 2 ∨ pzn = 1) (.ble d) ∧
      branch (pzn = 4) (.bgt d) ∧ branch (pzn = 4 ∨ pzn = 1) (.bnz d) ∧ branch (pzn = 4 ∨ pzn = 2) (.bge d)) ∧
  ∀ (s : State) (ra rx : Reg) (addr : Word),
    Completes (exec (.js ra rx addr) s) (fun t => t = { s with regs := t.regs, ic := daLong rx addr s } ∧
      KeepsRegs [ra] s t ∧ t.reg ra = s.ic) ∧
    Completes (exec (.soj ra rx addr) s) (fun t => t = { s with regs := t.regs, sw := t.sw, ic := t.ic } ∧
      KeepsRegs [ra] s t ∧ KeepsStatus s t ∧ t.reg ra = BitVec.ofInt 16 ((s.reg ra).toInt - 1) ∧
      csOf t.sw = signCS (t.reg ra).toInt ∧ t.ic = if t.reg ra = 0x0000#16 then s.ic else daLong rx addr s) ∧
    (∀ u, Memory.wf s.mem = true → takeTurn s = .ok u → Writable u (s.reg ra - 1) →
      Completes (exec (.sjs ra rx addr) s) fun t => StoreRegsResult [ra] (s.reg ra - 1) [s.ic] u t ∧
        t.reg ra = s.reg ra - 1 ∧ t.ic = daLong rx addr s) ∧
    ∀ a u, load (s.reg ra) s = .ok (a, u) → Completes (exec (.urs ra) s) fun t =>
      t = { u with regs := t.regs, ic := a } ∧ KeepsRegs [ra] s t ∧ t.reg ra = s.reg ra + 1

/-! ## Loads (44_load) -/

/-- The loads put one, two or three words into as many adjacent registers and set CS from the whole; the source
registers of DLR are read first. The loads of a byte put it into the lower half of RA, keep the upper half, and set CS
from the whole of RA. -/
def Obligations.LoadsPutOperandAndStatus : Prop :=
  (let P : Reg → Word → State → State → Prop := fun ra d => WordPut ra d
  RegForm .lr P ∧ BaseForms .lb .lbx 2 P ∧ PositiveForm .lisp P ∧ NegativeForm .lisn P ∧ MemForm .l P ∧ IndirectForm .li P ∧
    ∀ s ra rx addr, Completes (exec (.lim ra rx addr) s) (P ra (daLong rx addr s) s)) ∧
  (let P : Reg → DWord → State → State → Prop := fun ra d => PairPut ra d
  RegForm2 .dlr P ∧ BaseForms2 .dlb .dlbx 0 P ∧ MemForm2 .dl P ∧ IndirectForm2 .dli P ∧
    MemForm3 .efl fun ra d => TriplePut ra d) ∧
let upper : Reg → Word → State → State → Prop := fun ra d s =>
    WordPut ra (BitVec.ofNat 16 ((s.reg ra).toNat / 256 * 256 + d.toNat / 256)) s
  let lower : Reg → Word → State → State → Prop := fun ra d s =>
    WordPut ra (BitVec.ofNat 16 ((s.reg ra).toNat / 256 * 256 + d.toNat % 256)) s
  MemForm .lub upper ∧ IndirectForm .lubi upper ∧ MemForm .llb lower ∧ IndirectForm .llbi lower

/-- LM loads R0 to RN from ascending addresses, all formed before any register is loaded. POPM loads RA to RB, modulo
16, from the stack and moves R15 past them; the slot of R15 itself is passed over. CS is unchanged. Rests on the
choices of logs 6 and 110. -/
def Obligations.MultipleLoadsPutRegisters : Prop :=
  (∀ (s : State) (n : Fin 16) (rx : Reg) (addr : Word) (ws : Nat → Word), QuietFor (n.val + 1) s →
    (∀ k, k ≤ n.val → Reads s (daLong rx addr s + BitVec.ofNat 16 k) (ws k)) →
    Completes (exec (.lm n rx addr) s) fun t => t = { s with regs := t.regs, env := s.env.drop (n.val + 1) } ∧
      ∀ r : Reg, t.reg r = if r.val ≤ n.val then ws r.val else s.reg r) ∧
  ∀ (s : State) (ra rb : Reg) (ws : Nat → Word), QuietFor ((rb - ra).val + 1) s →
    (∀ r : Reg, r ≠ 15 → (r - ra).val ≤ (rb - ra).val →
      Reads s (s.reg 15 + BitVec.ofNat 16 (r - ra).val) (ws (r - ra).val)) →
    Completes (exec (.popm ra rb) s) fun t => t = { s with regs := t.regs, env := t.env } ∧
      t.reg 15 = s.reg 15 + BitVec.ofNat 16 ((rb - ra).val + 1) ∧
      ∀ r : Reg, r ≠ 15 → t.reg r = if (r - ra).val ≤ (rb - ra).val then ws (r - ra).val else s.reg r

/-! ## Stores (45_store) -/

/-- The stores of one, two and three words and of several registers put them at ascending addresses from DA on and
change nothing else, in turns in which the environment does nothing; the stores of one word also after a turn in which
it does. Rests on the choices of logs 3, 6 and 110. -/
def Obligations.StoresPutWordsInMemory : Prop :=
  ∀ (s : State) (ra rx br : Reg) (addr : Word) (x : Byte) (n : Fin 16), Memory.wf s.mem = true →
    let one : Word → State → Word → Instr → Prop := fun a u w i =>
      ∀ v, takeTurn u = .ok v → Writable v a → Completes (exec i s) (StoreResult a [w] v)
    let puts : Word → State → List Word → Instr → Prop := fun a u ws i =>
      QuietFor ws.length u → WritableWords u a ws.length → Completes (exec i s) (StoreResult a ws (afterTurns ws.length u))
    let two : Reg → List Word := fun r => [s.reg r, s.reg (r + 1)]
    one (daLong rx addr s) s (s.reg ra) (.st ra rx addr) ∧ one (daBase br x s) s (s.reg 2) (.stb br x) ∧
    one (daBaseIndexed br rx s) s (s.reg 2) (.stbx br rx) ∧
    one (daLong rx addr s) s (BitVec.ofNat 16 n.val) (.stc n rx addr) ∧
    puts (daLong rx addr s) s (two ra) (.dst ra rx addr) ∧ puts (daBase br x s) s (two 0) (.dstb br x) ∧
    puts (daBaseIndexed br rx s) s (two 0) (.dstx br rx) ∧
    puts (daLong rx addr s) s [s.reg ra, s.reg (ra + 1), s.reg (ra + 2)] (.efst ra rx addr) ∧
    puts (daLong rx addr s) s ((List.range (n.val + 1)).map fun k => s.reg (Fin.ofNat 16 k)) (.stm n rx addr) ∧
    ∀ a u, daIndirect rx addr s = .ok (a, u) →
      one a u (s.reg ra) (.sti ra rx addr) ∧ one a u (BitVec.ofNat 16 n.val) (.stci n rx addr) ∧
      puts a u (two ra) (.dsti ra rx addr)

/-- SRM stores RA through the mask RA+1; STUB and SUBI store the lower byte of RA into the upper byte of the word, STLB
and SLBI into the lower byte; the other bits of the word stay as they were read. Rests on the choices of logs 3 and 6. -/
def Obligations.PartialStoresMergeIntoWord : Prop :=
  ∀ (s s0 u v : State) (ra rx : Reg) (addr a d : Word), Memory.wf s.mem = true → load a s0 = .ok (d, u) →
    takeTurn u = .ok v → Writable v a →
    let upper : Word := BitVec.ofNat 16 ((s.reg ra).toNat % 256 * 256 + d.toNat % 256)
    let lower : Word := BitVec.ofNat 16 (d.toNat / 256 * 256 + (s.reg ra).toNat % 256)
    (s0 = s → a = daLong rx addr s →
      Completes (exec (.srm ra rx addr) s) (fun t => ∃ w, StoreResult a [w] v t ∧ ∀ m : BitNo,
        bitAt w m = if bitAt (s.reg (ra + 1)) m = true then bitAt (s.reg ra) m else bitAt d m) ∧
      Completes (exec (.stub ra rx addr) s) (StoreResult a [upper] v) ∧
      Completes (exec (.stlb ra rx addr) s) (StoreResult a [lower] v)) ∧
    (daIndirect rx addr s = .ok (a, s0) →
      Completes (exec (.subi ra rx addr) s) (StoreResult a [upper] v) ∧
      Completes (exec (.slbi ra rx addr) s) (StoreResult a [lower] v))

/-- PSHM stores RA to RB, modulo 16, below the stack pointer, RA lowest, and leaves R15 at the last word stored; R15
itself is stored as decremented for its own slot. An absent word ends it with R15 at that word, the words before it
stored, FT bit 8 set and the memory fault status captured. Rests on the choices of logs 3, 6, 104, 113 and 123. -/
def Obligations.PushMultipleStoresRegisters : Prop :=
  ∀ (s : State) (ra rb : Reg), Memory.wf s.mem = true →
    let n := (rb - ra).val + 1
    let bottom := s.reg 15 - BitVec.ofNat 16 n
    (QuietFor n s → WritableWords s bottom n →
      Completes (exec (.pshm ra rb) s) fun t =>
        StoreRegsResult [15] bottom ((List.range n).map fun k =>
          if ra + Fin.ofNat 16 k = 15 then bottom + BitVec.ofNat 16 k else s.reg (ra + Fin.ofNat 16 k)) (afterTurns n s) t ∧
        t.reg 15 = bottom ∧ t.ic = s.ic) ∧
    ∀ k, k < n → QuietFor (k + 1) s → WritableWords s (s.reg 15 - BitVec.ofNat 16 k) k →
      refFault s .cpu (operAccess s) true (s.reg 15 - BitVec.ofNat 16 (k + 1)) = some .illegalAddress →
      Completes (exec (.pshm ra rb) s) fun t => ∃ w,
        StoreRegsResult [15] (s.reg 15 - BitVec.ofNat 16 k) ((List.range k).map fun j =>
          if rb - Fin.ofNat 16 (k - 1 - j) = 15 then s.reg 15 - BitVec.ofNat 16 (k - j)
          else s.reg (rb - Fin.ofNat 16 (k - 1 - j))) (afterTurns (k + 1) s) w ∧
        w.reg 15 = s.reg 15 - BitVec.ofNat 16 (k + 1) ∧ w.ic = s.ic ∧
        RefFaulted 8 (operAccess s) (s.reg 15 - BitVec.ofNat 16 (k + 1)) w t

/-- MOV with a count of zero does nothing; otherwise it moves one word, counts RA and RB up and RA+1 down, and stays at
itself until the count is zero. Rests on the choices of logs 3, 6 and 124. -/
def Obligations.MoveTransfersOneWord : Prop :=
  ∀ (s : State) (ra rb : Reg),
    (s.reg (ra + 1) = 0x0000#16 → exec (.mov ra rb) s = .next s) ∧
    ∀ u v d, s.reg (ra + 1) ≠ 0x0000#16 → Memory.wf s.mem = true → load (s.reg rb) s = .ok (d, u) → takeTurn u = .ok v →
      Writable v (s.reg ra) →
      Completes (exec (.mov ra rb) s) fun t =>
        StoreRegsResult [ra, rb, ra + 1] (s.reg ra) [d] v t ∧
        (∀ r, t.reg r = s.reg r + (if r = ra then 1 else 0) + (if r = rb then 1 else 0) - if r = ra + 1 then 1 else 0) ∧
        t.ic = if t.reg (ra + 1) = 0x0000#16 then s.ic else s.ic - 1

/-! ## Integer arithmetic (46_int_addsub, 47_int_muldiv) -/

/-- The additions and subtractions put the sum or the difference, with carry (no borrow) and overflow. -/
def Obligations.AdditionsAndSubtractionsPutResult : Prop :=
  (let P : Reg → Word → State → State → Prop := fun ra d s => SumPut ra (s.reg ra) d s
  let P2 : Reg → DWord → State → State → Prop := fun ra d s => SumPut2 ra (s.pair ra) d s
  RegForm .ar P ∧ BaseForms .ab .abx 2 P ∧ PositiveForm .aisp P ∧ MemForm .a P ∧ ImmediateForm .aim P ∧ RegForm2 .dar P2 ∧
    MemForm2 .da P2) ∧
let P : Reg → Word → State → State → Prop := fun ra d s => DifferencePut ra (s.reg ra) d s
  let P2 : Reg → DWord → State → State → Prop := fun ra d s => DifferencePut2 ra (s.pair ra) d s
  RegForm .sr P ∧ BaseForms .sbb .sbbx 2 P ∧ PositiveForm .sisp P ∧ MemForm .s P ∧ ImmediateForm .sim P ∧ RegForm2 .dsr P2 ∧
    MemForm2 .ds P2

/-- INCM and DECM add or subtract 1 to 16 in memory, with CS, carry and overflow of the addition or subtraction. Rests
on the choices of logs 3 and 6. -/
def Obligations.MemoryIncrementAndDecrement : Prop :=
  ∀ (s u v : State) (n : Nat) (rx : Reg) (addr d : Word), 1 ≤ n → n ≤ 16 → Memory.wf s.mem = true →
    load (daLong rx addr s) s = .ok (d, u) → takeTurn u = .ok v → Writable v (daLong rx addr s) →
    Completes (exec (.incm n rx addr) s) (fun t =>
      let w := BitVec.ofInt 16 (d.toInt + n)
      StoreStatusResult (daLong rx addr s) [w] (signCS w.toInt ||| carryCS (2 ^ 16 ≤ d.toNat + n))
        (Unrepresentable 16 (d.toInt + n)) v t) ∧
    Completes (exec (.decm n rx addr) s) (fun t =>
      let w := BitVec.ofInt 16 (d.toInt - n)
      StoreStatusResult (daLong rx addr s) [w] (signCS w.toInt ||| carryCS (n ≤ d.toNat))
        (Unrepresentable 16 (d.toInt - n)) v t)

/-- ABS, NEG, DABS and DNEG put the magnitude or the negative, C = 0; the most negative number overflows to itself.
Rests on the choices of log 125. -/
def Obligations.AbsoluteValueAndNegation : Prop :=
  RegForm .abs (fun ra d => IntPut ra |d.toInt|) ∧ RegForm .neg (fun ra d => IntPut ra (-d.toInt)) ∧
    RegForm2 .dabs (fun ra d => IntPut2 ra |d.toInt|) ∧ RegForm2 .dneg (fun ra d => IntPut2 ra (-d.toInt))

/-- The multiplications: 16 bits with overflow, 16 by 16 to 32 bits, 32 bits with overflow. -/
def Obligations.MultiplicationsPutProduct : Prop :=
  let P : Reg → Word → State → State → Prop := fun ra d s => IntPut ra ((s.reg ra).toInt * d.toInt) s
  let P2 : Reg → Word → State → State → Prop := fun ra d s t =>
    PairPut ra (BitVec.ofInt 32 ((s.reg ra).toInt * d.toInt)) s t ∧ (t.pair ra).toInt = (s.reg ra).toInt * d.toInt
  let P3 : Reg → DWord → State → State → Prop := fun ra d s => IntPut2 ra ((s.pair ra).toInt * d.toInt) s
  RegForm .msr P ∧ PositiveForm .misp P ∧ NegativeForm .misn P ∧ MemForm .ms P ∧ ImmediateForm .msim P ∧
    RegForm .mr P2 ∧ BaseForms .mb .mbx 2 P2 ∧ MemForm .m P2 ∧ ImmediateForm .mim P2 ∧ RegForm2 .dmr P3 ∧ MemForm2 .dm P3

/-- The divisions: quotient toward zero and remainder with the sign of the dividend; a zero divisor gives zero and
overflow. Rests on the choices of log 126. -/
def Obligations.DivisionsPutQuotientAndRemainder : Prop :=
  let P : Reg → Word → State → State → Prop := fun ra d s => QuotientPut ra (s.reg ra).toInt d.toInt s
  let P2 : Reg → Word → State → State → Prop := fun ra d s => QuotientPut ra (s.pair ra).toInt d.toInt s
  let P3 : Reg → DWord → State → State → Prop := fun ra d s => QuotientPut2 ra (s.pair ra).toInt d.toInt s
  RegForm .dvr P ∧ PositiveForm .disp P ∧ NegativeForm .disn P ∧ MemForm .dv P ∧ ImmediateForm .dvim P ∧
    RegForm .dr P2 ∧ BaseForms .db .dbx 2 P2 ∧ MemForm .d P2 ∧ ImmediateForm .dim P2 ∧ RegForm2 .ddr P3 ∧ MemForm2 .dd P3

/-! ## Floating point (48_float) -/

/-- Floating point addition and subtraction in every form. Rests on the choices of logs 8, 127, 128 and 129. -/
def Obligations.FloatSumsAreAlignedAndNormalized : Prop :=
  (RegForm2 .far (FloatOp (FloatSum false 24)) ∧ BaseForms2 .fab .fabx 0 (FloatOp (FloatSum false 24)) ∧
    MemForm2 .fa (FloatOp (FloatSum false 24)) ∧ RegForm3 .efar (FloatOp3 (FloatSum false 40)) ∧
    MemForm3 .efa (FloatOp3 (FloatSum false 40))) ∧
  (RegForm2 .fsr (FloatOp (FloatSum true 24)) ∧ BaseForms2 .fsb .fsbx 0 (FloatOp (FloatSum true 24)) ∧
    MemForm2 .fs (FloatOp (FloatSum true 24)) ∧ RegForm3 .efsr (FloatOp3 (FloatSum true 40)) ∧
    MemForm3 .efs (FloatOp3 (FloatSum true 40)))

/-- Floating point multiplication in every form: the exact product, truncated. Rests on the choices of logs 8, 127 and
128. -/
def Obligations.FloatProductsAreTruncated : Prop :=
  RegForm2 .fmr (FloatOp (FloatProduct 24)) ∧ BaseForms2 .fmb .fmbx 0 (FloatOp (FloatProduct 24)) ∧
    MemForm2 .fm (FloatOp (FloatProduct 24)) ∧ RegForm3 .efmr (FloatOp3 (FloatProduct 40)) ∧
    MemForm3 .efm (FloatOp3 (FloatProduct 40))

/-- Floating point division in every form: the exact quotient, truncated; a zero divisor overflows. Rests on the
choices of logs 8, 127, 128 and 130. -/
def Obligations.FloatQuotientsAreTruncated : Prop :=
  RegForm2 .fdr (FloatOp (FloatQuotient 24)) ∧ BaseForms2 .fdb .fdbx 0 (FloatOp (FloatQuotient 24)) ∧
    MemForm2 .fd (FloatOp (FloatQuotient 24)) ∧ RegForm3 .efdr (FloatOp3 (FloatQuotient 40)) ∧
    MemForm3 .efd (FloatOp3 (FloatQuotient 40))

/-- Floating point comparison in every form orders the values. Rests on the choices of logs 8 and 127. -/
def Obligations.FloatComparesOrderValues : Prop :=
  let P : Reg → DWord → State → State → Prop := fun ra d s => FloatOrder 24 (unpack32 (s.pair ra)) (unpack32 d) s
  let P3 : Reg → TWord → State → State → Prop := fun ra d s => FloatOrder 40 (unpack48 (s.triple ra)) (unpack48 d) s
  RegForm2 .fcr P ∧ BaseForms2 .fcb .fcbx 0 P ∧ MemForm2 .fc P ∧ RegForm3 .efcr P3 ∧ MemForm3 .efc P3

/-- FABS and FNEG deliver the magnitude and the negative; the numbers whose result has no representation overflow or
underflow. Rests on the choices of logs 8, 127 and 128. -/
def Obligations.FloatMagnitudeAndNegation : Prop :=
  RegForm2 .fabs (fun ra d s t =>
    (GoodFloat 24 (unpack32 d) → FloatPut ra (fun x p =>
      if (unpack32 d).m = -(2 : Int) ^ 23 ∧ (unpack32 d).e = 127 then FloatLimit 24 False x ∧ p = some 3
      else GoodFloat 24 x ∧ floatValue 24 x = |floatValue 24 (unpack32 d)| ∧ p = none) s t) ∧
    (¬GoodFloat 24 (unpack32 d) → FloatOpen [ra, ra + 1] s t)) ∧
  RegForm2 .fneg (fun ra d s t =>
    (GoodFloat 24 (unpack32 d) → FloatPut ra (fun x p =>
      if (unpack32 d).m = -(2 : Int) ^ 23 ∧ (unpack32 d).e = 127 then FloatLimit 24 False x ∧ p = some 3
      else if (unpack32 d).m = (2 : Int) ^ 22 ∧ (unpack32 d).e = -128 then x = { m := 0, e := 0 } ∧ p = some 6
      else GoodFloat 24 x ∧ floatValue 24 x = -floatValue 24 (unpack32 d) ∧ p = none) s t) ∧
    (¬GoodFloat 24 (unpack32 d) → FloatOpen [ra, ra + 1] s t))

/-- FIX and EFIX put the integer part, rounded toward zero; an exponent beyond 15 (31) requests fixed point overflow
and stores nothing. FLT and EFLT put the integer exactly, normalized. Rests on the choices of logs 8 and 127. -/
def Obligations.FixAndFloatConvert : Prop :=
  RegForm2 .fix (fun ra d s t =>
    (GoodFloat 24 (unpack32 d) →
      (15 < (unpack32 d).e → t = { s with pi := s.pi ||| bitMask 4 }) ∧
      ((unpack32 d).e ≤ 15 → WordPut ra (BitVec.ofInt 16 (towardZero (floatValue 24 (unpack32 d)))) s t ∧
        (t.reg ra).toInt = towardZero (floatValue 24 (unpack32 d)))) ∧
    (¬GoodFloat 24 (unpack32 d) → FloatOpen [ra] s t)) ∧
  RegForm3 .efix (fun ra d s t =>
    (GoodFloat 40 (unpack48 d) →
      (31 < (unpack48 d).e → t = { s with pi := s.pi ||| bitMask 4 }) ∧
      ((unpack48 d).e ≤ 31 → PairPut ra (BitVec.ofInt 32 (towardZero (floatValue 40 (unpack48 d)))) s t ∧
        (t.pair ra).toInt = towardZero (floatValue 40 (unpack48 d)))) ∧
    (¬GoodFloat 40 (unpack48 d) → FloatOpen [ra, ra + 1] s t)) ∧
  RegForm .flt (fun ra d => FloatPut ra fun x p => GoodFloat 24 x ∧ floatValue 24 x = d.toInt ∧ p = none) ∧
  RegForm2 .eflt (fun ra d => FloatPut3 ra fun x p => GoodFloat 40 x ∧ floatValue 40 x = d.toInt ∧ p = none)

/-! ## Logic, exchange, compare, miscellaneous (49_logic_compare_misc) -/

/-- OR, AND, exclusive OR and NAND in every form, and the exchange of bytes and of registers, put their result and its
CS. -/
def Obligations.LogicAndExchangePutResult : Prop :=
  let disj : Reg → Word → State → State → Prop := fun ra d s => WordPut ra (s.reg ra ||| d) s
  let conj : Reg → Word → State → State → Prop := fun ra d s => WordPut ra (s.reg ra &&& d) s
  let excl : Reg → Word → State → State → Prop := fun ra d s => WordPut ra (s.reg ra ^^^ d) s
  let nand : Reg → Word → State → State → Prop := fun ra d s => WordPut ra (~~~(s.reg ra &&& d)) s
  (RegForm .orr disj ∧ BaseForms .orb .orbx 2 disj ∧ MemForm .or disj ∧ ImmediateForm .orim disj) ∧
  (RegForm .andr conj ∧ BaseForms .andb .andx 2 conj ∧ MemForm .and conj ∧ ImmediateForm .andm conj) ∧
  (RegForm .xorr excl ∧ MemForm .xor excl ∧ ImmediateForm .xorm excl) ∧
  (RegForm .nr nand ∧ MemForm .n nand ∧ ImmediateForm .nim nand) ∧
  (∀ s ra, Completes (exec (.xbr ra) s)
    (WordPut ra (BitVec.ofNat 16 ((s.reg ra).toNat % 256 * 256 + (s.reg ra).toNat / 256)) s)) ∧
  ∀ s ra rb, Completes (exec (.xwr ra rb) s) fun t => Frame [ra, rb] s t ∧ t.reg ra = s.reg rb ∧ t.reg rb = s.reg ra ∧
    csOf t.sw = signCS (t.reg ra).toInt ∧ t.pi = s.pi

/-- The integer comparisons set CS by the order of the two signed numbers and change nothing else; CBL by the place of
RA between two limits. Rests on the choices of log 6. -/
def Obligations.ComparesOrderIntegers : Prop :=
  let P : Reg → Word → State → State → Prop := fun ra d s => StatusResult (orderCS (s.reg ra).toInt d.toInt) s
  let P2 : Reg → DWord → State → State → Prop := fun ra d s => StatusResult (orderCS (s.pair ra).toInt d.toInt) s
  RegForm .cr P ∧ BaseForms .cb .cbx 2 P ∧ PositiveForm .cisp P ∧ NegativeForm .cisn P ∧ MemForm .c P ∧
    ImmediateForm .cim P ∧ RegForm2 .dcr P2 ∧ MemForm2 .dc P2 ∧
    ∀ s u v ra rx addr lo hi, load (daLong rx addr s) s = .ok (lo, u) → load (daLong rx addr s + 1) u = .ok (hi, v) →
      Completes (exec (.cbl ra rx addr) s) (StatusResult
        (if hi.toInt < lo.toInt then 0b1000#4 else if (s.reg ra).toInt < lo.toInt then 0b0001#4
          else if hi.toInt < (s.reg ra).toInt then 0b0100#4 else 0b0010#4) v)

/-- NOP changes nothing; BPT halts when a console is connected and is a NOP otherwise. BIF raises the illegal
instruction fault when the platform does not define the function. When it does, its further words are fetched at IC as
instruction words and the function is applied to them and to the state with IC past them; the result is kept in the
form the machine holds it, and what is the environment's stays. A fetch that faults, or a turn that ends the step, ends
it. Rests on the choices of logs 6, 14, 21 and 140. -/
def Obligations.NopBreakpointAndUserFunction : Prop :=
  ∀ s : State,
    exec .nop s = .next s ∧
    (s.cfg.console = true ∧ s.console.connected = true → exec .bpt s = .next { s with halted := true }) ∧
    (¬(s.cfg.console = true ∧ s.console.connected = true) → exec .bpt s = .next s) ∧
    ∀ x,
      (s.cfg.bifSet.lookup x = none → exec (.bif x) s = .next (raiseFault 9 s)) ∧
      ∀ k, s.cfg.bifSet.lookup x = some k →
        (∀ o, fetchWords k s = .error o → exec (.bif x) s = o) ∧
        (∀ e, 0 < k → QuietFor 1 s → readNow (fetchAccess s) s.ic { afterTurns 1 s with ic := s.ic + 1 } = .error e →
          exec (.bif x) s = .next e) ∧
        (∀ ws u, fetchWords k s = .ok (ws, u) → ws.length = k ∧ u.ic = s.ic + BitVec.ofNat 16 k ∧
          let f := Config.userFunction x ws u
          Completes (exec (.bif x) s) fun t => t = { f with
              mem := t.mem, pages := t.pages, ft := f.ft &&& s.cfg.ftImplemented,
              console := { f.console with connected := u.console.connected }, cfg := s.cfg, env := u.env,
              parityBad := u.parityBad, draws := u.draws } ∧
            Memory.wf t.mem = true ∧ (Memory.wf f.mem = true → t.mem = f.mem) ∧
            ∀ (kind : RefKind) (g y : BitVec 4), pageRegister t kind g y = pageWord s.cfg (pageRegister f kind g y)) ∧
        ∀ ws : List Word, ws.length = k → QuietFor k s →
          (∀ j w, ws[j]? = some w → readNow (fetchAccess s) (s.ic + BitVec.ofNat 16 j) s = .ok w) →
          fetchWords k s = .ok (ws, { afterTurns k s with ic := s.ic + BitVec.ofNat 16 k })

/-! ## XIO and VIO (40_io) -/

/-- The mandatory output commands of XIO: the interrupt mask, the pending interrupts and faults, the enables, the
status word. Rests on the choices of logs 12, 101, 102, 105, 106 and 136. -/
def Obligations.XioMandatoryOutputs : Prop :=
  ∀ (s : State) (ra rx : Reg) (addr : Word), psOf s.sw = 0x0#4 →
    let c := daLong rx addr s
    let w := s.reg ra
    let o := exec (.xio ra rx addr) s
    (c = 0x2000#16 → o = .next { s with mask := w }) ∧
    (c = 0x2001#16 → o = .next { s with pi := 0x0000#16, ft := 0x0000#16, piHold := 0x0000#16 }) ∧
    (c = 0x2002#16 → Completes o fun t => t = { s with enblPending := true, enblIssued := t.enblIssued } ∧
      (s.enblPending = false → t.enblIssued = true)) ∧
    (c = 0x2003#16 → o = .next { s with ie := false, enblPending := false, enblIssued := false }) ∧
    (c = 0x2004#16 → ∀ n : BitNo, n.val = w.toNat % 16 →
      o = .next { s with pi := s.pi &&& ~~~bitMask n, ft := if n = 1 then 0x0000#16 else s.ft }) ∧
    (c = 0x2005#16 → Completes o fun t => t = { s with pi := t.pi, piHold := t.piHold } ∧ ∀ n : BitNo,
      bitAt t.pi n = (bitAt s.pi n || bitAt w n) ∧ bitAt t.piHold n = (bitAt w n && !bitAt s.pi n)) ∧
    (c = 0x200E#16 →
      (groupImplemented s.cfg (asOf w) = true → o = .next { s with sw := w }) ∧
      (groupImplemented s.cfg (asOf w) = false → o = .next (raiseFault 11 { s with sw := w })))

/-- The input commands of XIO put their register into RA and leave CS: MK, PI, SW and FT (RCFR clears FT and PI bit 1),
the programmed input word, which is open; and, each when its option is implemented, the timers, the interrupt codes
(reading one releases it), the discretes, the memory fault status, the console, the memory protect RAM, the page
registers; CI keeps the console's word. A spare input command that the application implements delivers an open word.
The programmed output commands send RA out. Rests on the choices of logs 10, 17, 20, 23 and 26. -/
def Obligations.XioInputsAndProgrammedOutput : Prop :=
  (∀ (s : State) (ra rx : Reg) (addr : Word), psOf s.sw = 0x0#4 →
    let c := daLong rx addr s
    let gives : Word → State → Prop := fun v t => KeepsRegs [ra] s t ∧ t.reg ra = v
    let o := exec (.xio ra rx addr) s
    (c = 0xA000#16 → Completes o fun t => t = { s with regs := t.regs } ∧ gives s.mask t) ∧
    (c = 0xA004#16 → Completes o fun t => t = { s with regs := t.regs } ∧ gives s.pi t) ∧
    (c = 0xA00E#16 → Completes o fun t => t = { s with regs := t.regs } ∧ gives s.sw t) ∧
    (c = 0xA00F#16 → Completes o fun t =>
      t = { s with regs := t.regs, ft := 0x0000#16, pi := s.pi &&& ~~~bitMask 1 } ∧ gives s.ft t) ∧
    (0x8000 ≤ c.toNat → c.toNat ≤ 0x83FF → Completes o fun t =>
      t = { s with regs := t.regs, draws := t.draws } ∧ KeepsRegs [ra] s t) ∧
    (c ∈ s.cfg.spareXio → (0x84 ≤ c.toNat / 256 ∧ c.toNat / 256 ≤ 0x9F) ∨ (0xB0 ≤ c.toNat / 256 ∧ c.toNat / 256 ≤ 0xBF) ∨
        0xD3 ≤ c.toNat / 256 →
      Completes o fun t => t = { s with regs := t.regs, draws := t.draws } ∧ KeepsRegs [ra] s t) ∧
    (c.toNat ≤ 0x03FF → Completes o fun t =>
      t = { s with outputs := .pio c (s.reg ra) :: s.outputs, pobuf := if s.cfg.tpio = true then s.reg ra else s.pobuf })) ∧
  ∀ (s : State) (ra rx : Reg) (addr : Word), psOf s.sw = 0x0#4 →
    let c := daLong rx addr s
    let o := exec (.xio ra rx addr) s
    let gives : Word → Prop := fun v => Completes o fun t =>
      t = { s with regs := t.regs } ∧ KeepsRegs [ra] s t ∧ t.reg ra = v
    (s.cfg.timers = true → (c = 0xC00A#16 → gives s.timers.ta) ∧ (c = 0xC00E#16 → gives s.timers.tb)) ∧
    (s.cfg.ioic = true →
      (c = 0xA001#16 → Completes o fun t => t = { s with regs := t.regs, ioic := { s.ioic with frozen1 := false } } ∧
        KeepsRegs [ra] s t ∧ (t.reg ra).toNat = s.ioic.code1.toNat) ∧
      (c = 0xA002#16 → Completes o fun t => t = { s with regs := t.regs, ioic := { s.ioic with frozen2 := false } } ∧
        KeepsRegs [ra] s t ∧ (t.reg ra).toNat = s.ioic.code2.toNat)) ∧
    (s.cfg.discretes = true → (c = 0xA008#16 → gives s.dout) ∧ (c = 0xA009#16 → gives s.din)) ∧
    (s.cfg.tpio = true → c = 0xA00B#16 → gives s.pobuf) ∧
    (s.cfg.mfsr.isSome = true → c = 0xA00D#16 → gives s.mfsr) ∧
    (s.cfg.console = true → (c = 0xC000#16 → gives s.console.data) ∧ (c = 0xC001#16 → gives s.console.status)) ∧
    (s.cfg.memProtectRam = true → ∀ k : Fin 128, c.toNat = 0xD000 + k.val → gives (s.mprot.get k)) ∧
    ∀ (x : Expanded) (g y : BitVec 4), s.cfg.expanded = some x → g.toNat < x.groups.toNat →
      (c = 0xD1#8 ++ g ++ y → gives (pageRegister s .instr g y)) ∧
      (c = 0xD2#8 ++ g ++ y → gives (pageRegister s .oper g y))

/-- The optional output commands of XIO, each when its option is implemented: timers, start-up ROM, DMA, memory
protection, page registers, discretes, the console (nothing when none is connected), spare commands. Rests on the
choices of logs 17, 18, 108, 119 and 138. -/
def Obligations.XioOptionalOutputs : Prop :=
  ∀ (s : State) (ra rx : Reg) (addr : Word), psOf s.sw = 0x0#4 →
    let c := daLong rx addr s
    let w := s.reg ra
    let o := exec (.xio ra rx addr) s
    (s.cfg.timers = true →
      (c = 0x4008#16 → o = .next { s with timers := { s.timers with taRun := true } }) ∧
      (c = 0x4009#16 → o = .next { s with timers := { s.timers with taRun := false } }) ∧
      (c = 0x400A#16 → o = .next { s with timers := { s.timers with ta := w, taRun := true } }) ∧
      (c = 0x400C#16 → o = .next { s with timers := { s.timers with tbRun := true } }) ∧
      (c = 0x400D#16 → o = .next { s with timers := { s.timers with tbRun := false } }) ∧
      (c = 0x400E#16 → o = .next { s with timers := { s.timers with tb := w, tbRun := true } })) ∧
    (s.cfg.rom.isSome = true → (c = 0x4004#16 → o = .next { s with romEn := true }) ∧
      (c = 0x4005#16 → o = .next { s with romEn := false })) ∧
    (s.cfg.dma = true → (c = 0x4006#16 → o = .next { s with dmaEn := true }) ∧
      (c = 0x4007#16 → o = .next { s with dmaEn := false })) ∧
    (s.cfg.discretes = true → c = 0x2008#16 → o = .next { s with dout := w }) ∧
    (s.cfg.npuDiscrete = true → c = 0x200A#16 → o = .next { s with npu := false }) ∧
    (s.cfg.go = true → c = 0x400B#16 → o = .next { s with goRun := true, outputs := .goRestart :: s.outputs }) ∧
    (s.cfg.console = true → s.console.connected = true →
      (c = 0x4000#16 → o = .next { s with
        outputs := .consoleByte (w.extractLsb' 0 8) :: .consoleByte (w.extractLsb' 8 8) :: s.outputs }) ∧
      (c = 0x4001#16 → o = .next { s with outputs := .consoleClear :: s.outputs })) ∧
    (s.cfg.console = true → s.console.connected = false → (c = 0x4000#16 ∨ c = 0x4001#16 → o = .next s)) ∧
    (c ∈ s.cfg.spareXio → (0x04 ≤ c.toNat / 256 ∧ c.toNat / 256 ≤ 0x1F) ∨ (0x30 ≤ c.toNat / 256 ∧ c.toNat / 256 ≤ 0x3F) ∨
        (0x53 ≤ c.toNat / 256 ∧ c.toNat / 256 ≤ 0x7F) → o = .next { s with outputs := .spare c w :: s.outputs }) ∧
    (s.cfg.memProtectRam = true → (c = 0x4003#16 → o = .next { s with mprotEn := true }) ∧
      (0x5000 ≤ c.toNat → c.toNat ≤ 0x507F → Completes o fun t => t = { s with mprot := t.mprot } ∧
        ∀ k : Fin 128, t.mprot.get k = if k.val = c.toNat - 0x5000 then w else s.mprot.get k)) ∧
    ∀ (x : Expanded) (g y : BitVec 4), s.cfg.expanded = some x → g.toNat < x.groups.toNat →
      let stored := if x.lockKey = true then w &&& 0xF8FF#16 else w &&& 0x08FF#16
      (c = 0x51#8 ++ g ++ y → Completes o fun t => t = { s with pages := t.pages } ∧ ∀ kind g' y',
        pageRegister t kind g' y' = if kind = .instr ∧ g' = g ∧ y' = y then stored else pageRegister s kind g' y') ∧
      (c = 0x52#8 ++ g ++ y → Completes o fun t => t = { s with pages := t.pages } ∧ ∀ kind g' y',
        pageRegister t kind g' y' = if kind = .oper ∧ g' = g ∧ y' = y then stored else pageRegister s kind g' y')

/-- The command words that a machine implements, for every parameter set: programmed input and output, the mandatory
ones, the optional ones of the options it has, the page register commands of the groups it has, the spare ones of its
application. Every other command word raises Fault 5 and does nothing else. With the default parameters only the
mandatory ones and the timers exist. Rests on the choices of logs 117, 118 and 119. -/
def Obligations.StandardCommandWordsAndIllegalOnes : Prop :=
  ∀ (s : State) (ra rx : Reg) (addr : Word), psOf s.sw = 0x0#4 →
    let c := daLong rx addr s
    let k := s.cfg
    let group := c.toNat / 256 % 128
    let implemented :=
      c.toNat ≤ 0x03FF ∨ (0x8000 ≤ c.toNat ∧ c.toNat ≤ 0x83FF) ∨
      c ∈ [0x2000#16, 0x2001#16, 0x2002#16, 0x2003#16, 0x2004#16, 0x2005#16, 0x200E#16, 0xA000#16, 0xA004#16, 0xA00E#16,
        0xA00F#16] ∨
      (k.timers = true ∧
        c ∈ [0x4008#16, 0x4009#16, 0x400A#16, 0x400C#16, 0x400D#16, 0x400E#16, 0xC00A#16, 0xC00E#16]) ∨
      (k.ioic = true ∧ c ∈ [0xA001#16, 0xA002#16]) ∨ (k.discretes = true ∧ c ∈ [0x2008#16, 0xA008#16, 0xA009#16]) ∨
      (k.npuDiscrete = true ∧ c = 0x200A#16) ∨ (k.tpio = true ∧ c = 0xA00B#16) ∨ (k.mfsr.isSome = true ∧ c = 0xA00D#16) ∨
      (k.console = true ∧ c ∈ [0x4000#16, 0x4001#16, 0xC000#16, 0xC001#16]) ∨
      (k.rom.isSome = true ∧ c ∈ [0x4004#16, 0x4005#16]) ∨ (k.dma = true ∧ c ∈ [0x4006#16, 0x4007#16]) ∨
      (k.go = true ∧ c = 0x400B#16) ∨
      (k.memProtectRam = true ∧ (c = 0x4003#16 ∨ (0x5000 ≤ c.toNat ∧ c.toNat ≤ 0x507F) ∨
        (0xD000 ≤ c.toNat ∧ c.toNat ≤ 0xD07F))) ∨
      (∃ x, k.expanded = some x ∧ c.toNat / 256 ∈ [0x51, 0x52, 0xD1, 0xD2] ∧ c.toNat / 16 % 16 < x.groups.toNat) ∨
      (c ∈ k.spareXio ∧
        ((0x04 ≤ group ∧ group ≤ 0x1F) ∨ (0x30 ≤ group ∧ group ≤ 0x3F) ∨ (0x53 ≤ group ∧ group ≤ 0x7F)))
    (¬implemented → exec (.xio ra rx addr) s = .next (raiseFault 5 s)) ∧
    (k = Config.standard →
      ¬(c.toNat ≤ 0x03FF ∨ (0x8000 ≤ c.toNat ∧ c.toNat ≤ 0x83FF) ∨
        c ∈ [0x2000#16, 0x2001#16, 0x2002#16, 0x2003#16, 0x2004#16, 0x2005#16, 0x200E#16, 0xA000#16, 0xA004#16, 0xA00E#16,
          0xA00F#16, 0x4008#16, 0x4009#16, 0x400A#16, 0x400C#16, 0x400D#16, 0x400E#16, 0xC00A#16, 0xC00E#16]) →
      exec (.xio ra rx addr) s = .next (raiseFault 5 s))

/-- ENBL takes effect after the instruction that follows it: the boundary after ENBL leaves IE, the boundary after the
next instruction sets it, before it looks for an interrupt. Rests on the choices of logs 6, 12 and 105. -/
def Obligations.EnableTakesEffectOneInstructionLater : Prop :=
  ∀ (s : State) (ra rx : Reg) (addr : Word), psOf s.sw = 0x0#4 → s.enblPending = false → s.halted = false →
    QuietFor 1 s → daLong rx addr s = 0x2002#16 → (∀ n, eligible s n = false) →
    Completes (exec (.xio ra rx addr) s) fun t =>
      boundary t = .next { afterTurns 1 s with enblPending := true, enblIssued := false, piHold := 0x0000#16 } ∧
      ∀ v u, takeTurn v = .ok u → u.enblPending = true → u.enblIssued = false → u.halted = false →
        (∀ n : BitNo, bitAt u.pi n = false) →
        boundary v = .next { u with ie := true, enblPending := false, piHold := 0x0000#16 }

/-- VIO reads its command and its vector select, then performs the command `[DA] + n * R[RA]` for every selected bit n
in order, the i-th of them with the data word at DA + 2 + i; an illegal command raises Fault 5 and ends the chain, the
commands before it stay done. With no bit selected it does nothing more; with one bit it performs that command, here
said once more without the chain. Rests on the choices of logs 6, 22 and 137. -/
def Obligations.VioPerformsSelectedCommand : Prop :=
  ∀ (s u v : State) (ra rx : Reg) (addr c0 vs : Word), psOf s.sw = 0x0#4 → load (daLong rx addr s) s = .ok (c0, u) →
    load (daLong rx addr s + 1) u = .ok (vs, v) →
    VioRuns c0 (s.reg ra) ((List.finRange 16).filter fun n => bitAt vs n) (daLong rx addr s + 2) v
      (exec (.vio ra rx addr) s) ∧
    (vs = 0x0000#16 → exec (.vio ra rx addr) s = .next v) ∧
    ∀ n : BitNo, vs = bitMask n →
      let c := c0 + BitVec.ofNat 16 n.val * s.reg ra
      (∀ o w t, decodeIo s.cfg c = some (.out o) → load (daLong rx addr s + 2) v = .ok (w, t) →
        exec (.vio ra rx addr) s = .next (outputEffect o w t)) ∧
      (∀ i, decodeIo s.cfg c = some (.inp i) → Memory.wf s.mem = true → QuietFor 2 v →
        Writable v (daLong rx addr s + 2) →
        Completes (exec (.vio ra rx addr) s) fun t =>
          t = { (inputEffect i v).2 with mem := t.mem, env := v.env.drop 2 } ∧
          StoresAt (daLong rx addr s + 2) [(inputEffect i v).1] v t) ∧
      (decodeIo s.cfg c = none → exec (.vio ra rx addr) s = .next (raiseFault 5 v))

end
end

