-- ==== Sys2Proof/Laws/Memory.lean ====
section
/-! SUPPORT. Main memory: its operations keep the canonical form, and a read after a write. -/

namespace Sys2Proof.Machine

/-! ## The canonical form -/

theorem Memory.wfFrom_mono {lo lo' : Nat} (h : lo' ≤ lo) : ∀ {m : Memory}, Memory.wfFrom lo m = true → Memory.wfFrom lo' m = true
  | [], _ => rfl
  | (a, v) :: rest, hm => by
    simp only [Memory.wfFrom, Bool.and_eq_true, decide_eq_true_eq] at hm ⊢
    exact ⟨⟨⟨by omega, hm.1.1.2⟩, hm.1.2⟩, hm.2⟩

/-- Writing a byte of the address space keeps the canonical form. -/
theorem Memory.wfFrom_writeByte {a : Nat} {v : Byte} (ha : a < memoryBytes) :
    ∀ {m : Memory} {lo : Nat}, lo ≤ a → Memory.wfFrom lo m = true → Memory.wfFrom lo (Memory.writeByte m a v) = true
  | [], lo, hlo, _ => by
    unfold Memory.writeByte
    split
    · rfl
    · simp [Memory.wfFrom, *]
  | (b, w) :: rest, lo, hlo, hm => by
    have hm' := hm
    simp only [Memory.wfFrom, Bool.and_eq_true, decide_eq_true_eq] at hm
    obtain ⟨⟨⟨h1, h2⟩, h3⟩, h4⟩ := hm
    unfold Memory.writeByte
    split
    · split
      · exact hm'
      · rename_i hab hv
        simp only [Memory.wfFrom, Bool.and_eq_true, decide_eq_true_eq]
        exact ⟨⟨⟨hlo, ha⟩, hv⟩, ⟨⟨by omega, h2⟩, h3⟩, h4⟩
    · split
      · subst_vars
        split
        · exact Memory.wfFrom_mono (by omega) h4
        · rename_i hv
          simp only [Memory.wfFrom, Bool.and_eq_true, decide_eq_true_eq]
          exact ⟨⟨⟨hlo, ha⟩, hv⟩, h4⟩
      · rename_i hab hne
        simp only [Memory.wfFrom, Bool.and_eq_true, decide_eq_true_eq]
        exact ⟨⟨⟨h1, h2⟩, h3⟩, Memory.wfFrom_writeByte ha (by omega) h4⟩

theorem Memory.wf_writeByte {m : Memory} {a : Nat} {v : Byte} (ha : a < memoryBytes) (hm : Memory.wf m = true) :
    Memory.wf (Memory.writeByte m a v) = true := Memory.wfFrom_writeByte ha (Nat.zero_le a) hm

/-- Both bytes of a physical word lie in the address space. -/
theorem byteAddress_lt (p : PAddr) : 2 * p.toNat + 1 < memoryBytes := by
  have := p.isLt
  unfold memoryBytes
  omega

/-- Writing a word keeps the canonical form. -/
theorem Memory.wf_writeWord {m : Memory} (p : PAddr) (v : Word) (hm : Memory.wf m = true) :
    Memory.wf (Memory.writeWord m p v) = true := by
  have := byteAddress_lt p
  exact Memory.wf_writeByte this (Memory.wf_writeByte (by omega) hm)

theorem Memory.wf_foldl_image : ∀ (image : List Host.Cell) (m : Memory), Memory.wf m = true →
    Memory.wf (image.foldl (fun m c => if c.1 < memoryBytes then Memory.writeByte m c.1 c.2 else m) m) = true
  | [], _, hm => hm
  | c :: rest, m, hm => by
    rw [List.foldl_cons]
    apply Memory.wf_foldl_image rest
    split
    · exact Memory.wf_writeByte ‹_› hm
    · exact hm

/-- A memory made from an image is in canonical form. -/
theorem Memory.wf_ofImage (image : List Host.Cell) : Memory.wf (Memory.ofImage image) = true :=
  Memory.wf_foldl_image image [] rfl

/-! ## Read after write -/

theorem Memory.readByte_below : ∀ {m : Memory} {lo a : Nat}, Memory.wfFrom lo m = true → a < lo → Memory.readByte m a = unlistedByte
  | [], _, _, _, _ => rfl
  | (b, w) :: rest, lo, a, hm, ha => by
    simp only [Memory.wfFrom, Bool.and_eq_true, decide_eq_true_eq] at hm
    have : a < b := by omega
    simp [Memory.readByte, this]

/-- The byte read at `b` after `v` has been written at `a`. -/
theorem Memory.readByte_writeByteFrom {a : Nat} {v : Byte} (b : Nat) : ∀ {m : Memory} {lo : Nat}, Memory.wfFrom lo m = true →
    Memory.readByte (Memory.writeByte m a v) b = if b = a then v else Memory.readByte m b
  | [], _, _ => by
    unfold Memory.writeByte
    by_cases hv : v = unlistedByte
    · subst hv
      by_cases h : b = a <;> simp [Memory.readByte]
    · rw [if_neg hv]
      by_cases h : b = a
      · simp [Memory.readByte, h]
      · by_cases h' : b < a <;> simp [Memory.readByte, h, h']
  | (c, w) :: rest, lo, hm => by
    simp only [Memory.wfFrom, Bool.and_eq_true, decide_eq_true_eq] at hm
    obtain ⟨⟨⟨h1, h2⟩, h3⟩, h4⟩ := hm
    have hbelow : b < c + 1 → Memory.readByte rest b = unlistedByte := fun hb => Memory.readByte_below h4 hb
    unfold Memory.writeByte
    rcases Nat.lt_trichotomy a c with hac | hac | hac
    · rw [if_pos hac]
      by_cases hv : v = unlistedByte
      · rw [if_pos hv]
        by_cases h : b = a
        · simp [Memory.readByte, h, hac, hv]
        · simp [h]
      · rw [if_neg hv]
        by_cases h : b = a
        · simp [Memory.readByte, h]
        · by_cases h' : b < a
          · simp [Memory.readByte, h, h', Nat.lt_trans h' hac]
          · simp [Memory.readByte, h, h']
    · subst hac
      rw [if_neg (Nat.lt_irrefl a), if_pos rfl]
      by_cases hv : v = unlistedByte
      · rw [if_pos hv]
        by_cases h : b = a
        · rw [if_pos h, hbelow (by omega), hv]
        · rw [if_neg h]
          by_cases h' : b < a
          · rw [hbelow (by omega)]
            simp [Memory.readByte, h']
          · simp [Memory.readByte, h, h']
      · rw [if_neg hv]
        by_cases h : b = a
        · simp [Memory.readByte, h]
        · by_cases h' : b < a <;> simp [Memory.readByte, h, h']
    · rw [if_neg (by omega), if_neg (by omega)]
      by_cases h' : b < c
      · have : b ≠ a := by omega
        simp [Memory.readByte, h', this]
      · by_cases h'' : b = c
        · have : c ≠ a := by omega
          simp [Memory.readByte, h'', this]
        · simp only [Memory.readByte, h', h'', if_false]
          exact Memory.readByte_writeByteFrom b h4

theorem Memory.readByte_writeByte {m : Memory} (hm : Memory.wf m = true) (a b : Nat) (v : Byte) :
    Memory.readByte (Memory.writeByte m a v) b = if b = a then v else Memory.readByte m b :=
  Memory.readByte_writeByteFrom b hm

/-- The byte read at `b` after the word `v` has been written at `p`. -/
theorem Memory.readByte_writeWord {m : Memory} (hm : Memory.wf m = true) (p : PAddr) (v : Word) (b : Nat) :
    Memory.readByte (Memory.writeWord m p v) b =
      if b = 2 * p.toNat + 1 then v.extractLsb' 0 8 else if b = 2 * p.toNat then v.extractLsb' 8 8 else Memory.readByte m b := by
  have := byteAddress_lt p
  unfold Memory.writeWord
  rw [Memory.readByte_writeByte (Memory.wf_writeByte (by omega) hm), Memory.readByte_writeByte hm]

theorem byteHalves (v : Word) : v.extractLsb' 8 8 ++ v.extractLsb' 0 8 = v := by
  ext i hi
  simp only [BitVec.getElem_append, BitVec.getElem_extractLsb']
  split
  · simp [BitVec.getLsbD_eq_getElem hi]
  · rw [show 8 + (i - 8) = i by omega, BitVec.getLsbD_eq_getElem hi]

/-- A word written is read back. -/
theorem Memory.readWord_writeWord_same {m : Memory} (hm : Memory.wf m = true) (p : PAddr) (v : Word) :
    Memory.readWord (Memory.writeWord m p v) p = v := by
  unfold Memory.readWord
  rw [Memory.readByte_writeWord hm, Memory.readByte_writeWord hm]
  simp only [if_true, show 2 * p.toNat ≠ 2 * p.toNat + 1 by omega, if_false]
  exact byteHalves v

/-- A word written leaves every other word as it was. -/
theorem Memory.readWord_writeWord_other {m : Memory} (hm : Memory.wf m = true) {p q : PAddr} (v : Word) (h : q ≠ p) :
    Memory.readWord (Memory.writeWord m p v) q = Memory.readWord m q := by
  have h' : q.toNat ≠ p.toNat := fun e => h (BitVec.eq_of_toNat_eq e)
  unfold Memory.readWord
  rw [Memory.readByte_writeWord hm, Memory.readByte_writeWord hm]
  simp only [show 2 * q.toNat ≠ 2 * p.toNat + 1 by omega, show 2 * q.toNat ≠ 2 * p.toNat by omega,
    show 2 * q.toNat + 1 ≠ 2 * p.toNat + 1 by omega, show 2 * q.toNat + 1 ≠ 2 * p.toNat by omega, if_false]

end Sys2Proof.Machine
end

