-- ==== Sys2Proof/Laws/State.lean ====
section
/-! SUPPORT. One lemma per field and per update of the state, so that no proof unfolds a record update. -/

namespace Sys2Proof.Machine

/-! ## A write of a general register -/

@[simp] theorem State.setReg_regs (s : State) (r : Reg) (v : Word) : (s.setReg r v).regs = s.regs.set r.val v r.isLt := rfl
@[simp] theorem State.setReg_ic (s : State) (r : Reg) (v : Word) : (s.setReg r v).ic = s.ic := rfl
@[simp] theorem State.setReg_sw (s : State) (r : Reg) (v : Word) : (s.setReg r v).sw = s.sw := rfl
@[simp] theorem State.setReg_ft (s : State) (r : Reg) (v : Word) : (s.setReg r v).ft = s.ft := rfl
@[simp] theorem State.setReg_mask (s : State) (r : Reg) (v : Word) : (s.setReg r v).mask = s.mask := rfl
@[simp] theorem State.setReg_pi (s : State) (r : Reg) (v : Word) : (s.setReg r v).pi = s.pi := rfl
@[simp] theorem State.setReg_ie (s : State) (r : Reg) (v : Word) : (s.setReg r v).ie = s.ie := rfl
@[simp] theorem State.setReg_enblPending (s : State) (r : Reg) (v : Word) : (s.setReg r v).enblPending = s.enblPending := rfl
@[simp] theorem State.setReg_enblIssued (s : State) (r : Reg) (v : Word) : (s.setReg r v).enblIssued = s.enblIssued := rfl
@[simp] theorem State.setReg_piHold (s : State) (r : Reg) (v : Word) : (s.setReg r v).piHold = s.piHold := rfl
@[simp] theorem State.setReg_halted (s : State) (r : Reg) (v : Word) : (s.setReg r v).halted = s.halted := rfl
@[simp] theorem State.setReg_mem (s : State) (r : Reg) (v : Word) : (s.setReg r v).mem = s.mem := rfl
@[simp] theorem State.setReg_pages (s : State) (r : Reg) (v : Word) : (s.setReg r v).pages = s.pages := rfl
@[simp] theorem State.setReg_mprot (s : State) (r : Reg) (v : Word) : (s.setReg r v).mprot = s.mprot := rfl
@[simp] theorem State.setReg_mprotEn (s : State) (r : Reg) (v : Word) : (s.setReg r v).mprotEn = s.mprotEn := rfl
@[simp] theorem State.setReg_mfsr (s : State) (r : Reg) (v : Word) : (s.setReg r v).mfsr = s.mfsr := rfl
@[simp] theorem State.setReg_ioic (s : State) (r : Reg) (v : Word) : (s.setReg r v).ioic = s.ioic := rfl
@[simp] theorem State.setReg_timers (s : State) (r : Reg) (v : Word) : (s.setReg r v).timers = s.timers := rfl
@[simp] theorem State.setReg_romEn (s : State) (r : Reg) (v : Word) : (s.setReg r v).romEn = s.romEn := rfl
@[simp] theorem State.setReg_dmaEn (s : State) (r : Reg) (v : Word) : (s.setReg r v).dmaEn = s.dmaEn := rfl
@[simp] theorem State.setReg_npu (s : State) (r : Reg) (v : Word) : (s.setReg r v).npu = s.npu := rfl
@[simp] theorem State.setReg_goRun (s : State) (r : Reg) (v : Word) : (s.setReg r v).goRun = s.goRun := rfl
@[simp] theorem State.setReg_dout (s : State) (r : Reg) (v : Word) : (s.setReg r v).dout = s.dout := rfl
@[simp] theorem State.setReg_din (s : State) (r : Reg) (v : Word) : (s.setReg r v).din = s.din := rfl
@[simp] theorem State.setReg_pobuf (s : State) (r : Reg) (v : Word) : (s.setReg r v).pobuf = s.pobuf := rfl
@[simp] theorem State.setReg_console (s : State) (r : Reg) (v : Word) : (s.setReg r v).console = s.console := rfl
@[simp] theorem State.setReg_parityBad (s : State) (r : Reg) (v : Word) : (s.setReg r v).parityBad = s.parityBad := rfl
@[simp] theorem State.setReg_env (s : State) (r : Reg) (v : Word) : (s.setReg r v).env = s.env := rfl
@[simp] theorem State.setReg_outputs (s : State) (r : Reg) (v : Word) : (s.setReg r v).outputs = s.outputs := rfl
@[simp] theorem State.setReg_draws (s : State) (r : Reg) (v : Word) : (s.setReg r v).draws = s.draws := rfl
@[simp] theorem State.setReg_cfg (s : State) (r : Reg) (v : Word) : (s.setReg r v).cfg = s.cfg := rfl

/-! ## A write of a register pair -/

@[simp] theorem State.setPair_ic (s : State) (r : Reg) (v : DWord) : (s.setPair r v).ic = s.ic := rfl
@[simp] theorem State.setPair_sw (s : State) (r : Reg) (v : DWord) : (s.setPair r v).sw = s.sw := rfl
@[simp] theorem State.setPair_ft (s : State) (r : Reg) (v : DWord) : (s.setPair r v).ft = s.ft := rfl
@[simp] theorem State.setPair_mask (s : State) (r : Reg) (v : DWord) : (s.setPair r v).mask = s.mask := rfl
@[simp] theorem State.setPair_pi (s : State) (r : Reg) (v : DWord) : (s.setPair r v).pi = s.pi := rfl
@[simp] theorem State.setPair_ie (s : State) (r : Reg) (v : DWord) : (s.setPair r v).ie = s.ie := rfl
@[simp] theorem State.setPair_enblPending (s : State) (r : Reg) (v : DWord) : (s.setPair r v).enblPending = s.enblPending := rfl
@[simp] theorem State.setPair_enblIssued (s : State) (r : Reg) (v : DWord) : (s.setPair r v).enblIssued = s.enblIssued := rfl
@[simp] theorem State.setPair_piHold (s : State) (r : Reg) (v : DWord) : (s.setPair r v).piHold = s.piHold := rfl
@[simp] theorem State.setPair_halted (s : State) (r : Reg) (v : DWord) : (s.setPair r v).halted = s.halted := rfl
@[simp] theorem State.setPair_mem (s : State) (r : Reg) (v : DWord) : (s.setPair r v).mem = s.mem := rfl
@[simp] theorem State.setPair_pages (s : State) (r : Reg) (v : DWord) : (s.setPair r v).pages = s.pages := rfl
@[simp] theorem State.setPair_mprot (s : State) (r : Reg) (v : DWord) : (s.setPair r v).mprot = s.mprot := rfl
@[simp] theorem State.setPair_mprotEn (s : State) (r : Reg) (v : DWord) : (s.setPair r v).mprotEn = s.mprotEn := rfl
@[simp] theorem State.setPair_mfsr (s : State) (r : Reg) (v : DWord) : (s.setPair r v).mfsr = s.mfsr := rfl
@[simp] theorem State.setPair_ioic (s : State) (r : Reg) (v : DWord) : (s.setPair r v).ioic = s.ioic := rfl
@[simp] theorem State.setPair_timers (s : State) (r : Reg) (v : DWord) : (s.setPair r v).timers = s.timers := rfl
@[simp] theorem State.setPair_romEn (s : State) (r : Reg) (v : DWord) : (s.setPair r v).romEn = s.romEn := rfl
@[simp] theorem State.setPair_dmaEn (s : State) (r : Reg) (v : DWord) : (s.setPair r v).dmaEn = s.dmaEn := rfl
@[simp] theorem State.setPair_npu (s : State) (r : Reg) (v : DWord) : (s.setPair r v).npu = s.npu := rfl
@[simp] theorem State.setPair_goRun (s : State) (r : Reg) (v : DWord) : (s.setPair r v).goRun = s.goRun := rfl
@[simp] theorem State.setPair_dout (s : State) (r : Reg) (v : DWord) : (s.setPair r v).dout = s.dout := rfl
@[simp] theorem State.setPair_din (s : State) (r : Reg) (v : DWord) : (s.setPair r v).din = s.din := rfl
@[simp] theorem State.setPair_pobuf (s : State) (r : Reg) (v : DWord) : (s.setPair r v).pobuf = s.pobuf := rfl
@[simp] theorem State.setPair_console (s : State) (r : Reg) (v : DWord) : (s.setPair r v).console = s.console := rfl
@[simp] theorem State.setPair_parityBad (s : State) (r : Reg) (v : DWord) : (s.setPair r v).parityBad = s.parityBad := rfl
@[simp] theorem State.setPair_env (s : State) (r : Reg) (v : DWord) : (s.setPair r v).env = s.env := rfl
@[simp] theorem State.setPair_outputs (s : State) (r : Reg) (v : DWord) : (s.setPair r v).outputs = s.outputs := rfl
@[simp] theorem State.setPair_draws (s : State) (r : Reg) (v : DWord) : (s.setPair r v).draws = s.draws := rfl
@[simp] theorem State.setPair_cfg (s : State) (r : Reg) (v : DWord) : (s.setPair r v).cfg = s.cfg := rfl

/-! ## A write of three registers -/

@[simp] theorem State.setTriple_ic (s : State) (r : Reg) (v : TWord) : (s.setTriple r v).ic = s.ic := rfl
@[simp] theorem State.setTriple_sw (s : State) (r : Reg) (v : TWord) : (s.setTriple r v).sw = s.sw := rfl
@[simp] theorem State.setTriple_ft (s : State) (r : Reg) (v : TWord) : (s.setTriple r v).ft = s.ft := rfl
@[simp] theorem State.setTriple_mask (s : State) (r : Reg) (v : TWord) : (s.setTriple r v).mask = s.mask := rfl
@[simp] theorem State.setTriple_pi (s : State) (r : Reg) (v : TWord) : (s.setTriple r v).pi = s.pi := rfl
@[simp] theorem State.setTriple_ie (s : State) (r : Reg) (v : TWord) : (s.setTriple r v).ie = s.ie := rfl
@[simp] theorem State.setTriple_enblPending (s : State) (r : Reg) (v : TWord) : (s.setTriple r v).enblPending = s.enblPending := rfl
@[simp] theorem State.setTriple_enblIssued (s : State) (r : Reg) (v : TWord) : (s.setTriple r v).enblIssued = s.enblIssued := rfl
@[simp] theorem State.setTriple_piHold (s : State) (r : Reg) (v : TWord) : (s.setTriple r v).piHold = s.piHold := rfl
@[simp] theorem State.setTriple_halted (s : State) (r : Reg) (v : TWord) : (s.setTriple r v).halted = s.halted := rfl
@[simp] theorem State.setTriple_mem (s : State) (r : Reg) (v : TWord) : (s.setTriple r v).mem = s.mem := rfl
@[simp] theorem State.setTriple_pages (s : State) (r : Reg) (v : TWord) : (s.setTriple r v).pages = s.pages := rfl
@[simp] theorem State.setTriple_mprot (s : State) (r : Reg) (v : TWord) : (s.setTriple r v).mprot = s.mprot := rfl
@[simp] theorem State.setTriple_mprotEn (s : State) (r : Reg) (v : TWord) : (s.setTriple r v).mprotEn = s.mprotEn := rfl
@[simp] theorem State.setTriple_mfsr (s : State) (r : Reg) (v : TWord) : (s.setTriple r v).mfsr = s.mfsr := rfl
@[simp] theorem State.setTriple_ioic (s : State) (r : Reg) (v : TWord) : (s.setTriple r v).ioic = s.ioic := rfl
@[simp] theorem State.setTriple_timers (s : State) (r : Reg) (v : TWord) : (s.setTriple r v).timers = s.timers := rfl
@[simp] theorem State.setTriple_romEn (s : State) (r : Reg) (v : TWord) : (s.setTriple r v).romEn = s.romEn := rfl
@[simp] theorem State.setTriple_dmaEn (s : State) (r : Reg) (v : TWord) : (s.setTriple r v).dmaEn = s.dmaEn := rfl
@[simp] theorem State.setTriple_npu (s : State) (r : Reg) (v : TWord) : (s.setTriple r v).npu = s.npu := rfl
@[simp] theorem State.setTriple_goRun (s : State) (r : Reg) (v : TWord) : (s.setTriple r v).goRun = s.goRun := rfl
@[simp] theorem State.setTriple_dout (s : State) (r : Reg) (v : TWord) : (s.setTriple r v).dout = s.dout := rfl
@[simp] theorem State.setTriple_din (s : State) (r : Reg) (v : TWord) : (s.setTriple r v).din = s.din := rfl
@[simp] theorem State.setTriple_pobuf (s : State) (r : Reg) (v : TWord) : (s.setTriple r v).pobuf = s.pobuf := rfl
@[simp] theorem State.setTriple_console (s : State) (r : Reg) (v : TWord) : (s.setTriple r v).console = s.console := rfl
@[simp] theorem State.setTriple_parityBad (s : State) (r : Reg) (v : TWord) : (s.setTriple r v).parityBad = s.parityBad := rfl
@[simp] theorem State.setTriple_env (s : State) (r : Reg) (v : TWord) : (s.setTriple r v).env = s.env := rfl
@[simp] theorem State.setTriple_outputs (s : State) (r : Reg) (v : TWord) : (s.setTriple r v).outputs = s.outputs := rfl
@[simp] theorem State.setTriple_draws (s : State) (r : Reg) (v : TWord) : (s.setTriple r v).draws = s.draws := rfl
@[simp] theorem State.setTriple_cfg (s : State) (r : Reg) (v : TWord) : (s.setTriple r v).cfg = s.cfg := rfl

/-! ## A write of the condition status -/

@[simp] theorem setCS_regs (cs : BitVec 4) (s : State) : (setCS cs s).regs = s.regs := rfl
@[simp] theorem setCS_ic (cs : BitVec 4) (s : State) : (setCS cs s).ic = s.ic := rfl
@[simp] theorem setCS_sw (cs : BitVec 4) (s : State) : (setCS cs s).sw = withCS s.sw cs := rfl
@[simp] theorem setCS_ft (cs : BitVec 4) (s : State) : (setCS cs s).ft = s.ft := rfl
@[simp] theorem setCS_mask (cs : BitVec 4) (s : State) : (setCS cs s).mask = s.mask := rfl
@[simp] theorem setCS_pi (cs : BitVec 4) (s : State) : (setCS cs s).pi = s.pi := rfl
@[simp] theorem setCS_ie (cs : BitVec 4) (s : State) : (setCS cs s).ie = s.ie := rfl
@[simp] theorem setCS_enblPending (cs : BitVec 4) (s : State) : (setCS cs s).enblPending = s.enblPending := rfl
@[simp] theorem setCS_enblIssued (cs : BitVec 4) (s : State) : (setCS cs s).enblIssued = s.enblIssued := rfl
@[simp] theorem setCS_piHold (cs : BitVec 4) (s : State) : (setCS cs s).piHold = s.piHold := rfl
@[simp] theorem setCS_halted (cs : BitVec 4) (s : State) : (setCS cs s).halted = s.halted := rfl
@[simp] theorem setCS_mem (cs : BitVec 4) (s : State) : (setCS cs s).mem = s.mem := rfl
@[simp] theorem setCS_pages (cs : BitVec 4) (s : State) : (setCS cs s).pages = s.pages := rfl
@[simp] theorem setCS_mprot (cs : BitVec 4) (s : State) : (setCS cs s).mprot = s.mprot := rfl
@[simp] theorem setCS_mprotEn (cs : BitVec 4) (s : State) : (setCS cs s).mprotEn = s.mprotEn := rfl
@[simp] theorem setCS_mfsr (cs : BitVec 4) (s : State) : (setCS cs s).mfsr = s.mfsr := rfl
@[simp] theorem setCS_ioic (cs : BitVec 4) (s : State) : (setCS cs s).ioic = s.ioic := rfl
@[simp] theorem setCS_timers (cs : BitVec 4) (s : State) : (setCS cs s).timers = s.timers := rfl
@[simp] theorem setCS_romEn (cs : BitVec 4) (s : State) : (setCS cs s).romEn = s.romEn := rfl
@[simp] theorem setCS_dmaEn (cs : BitVec 4) (s : State) : (setCS cs s).dmaEn = s.dmaEn := rfl
@[simp] theorem setCS_npu (cs : BitVec 4) (s : State) : (setCS cs s).npu = s.npu := rfl
@[simp] theorem setCS_goRun (cs : BitVec 4) (s : State) : (setCS cs s).goRun = s.goRun := rfl
@[simp] theorem setCS_dout (cs : BitVec 4) (s : State) : (setCS cs s).dout = s.dout := rfl
@[simp] theorem setCS_din (cs : BitVec 4) (s : State) : (setCS cs s).din = s.din := rfl
@[simp] theorem setCS_pobuf (cs : BitVec 4) (s : State) : (setCS cs s).pobuf = s.pobuf := rfl
@[simp] theorem setCS_console (cs : BitVec 4) (s : State) : (setCS cs s).console = s.console := rfl
@[simp] theorem setCS_parityBad (cs : BitVec 4) (s : State) : (setCS cs s).parityBad = s.parityBad := rfl
@[simp] theorem setCS_env (cs : BitVec 4) (s : State) : (setCS cs s).env = s.env := rfl
@[simp] theorem setCS_outputs (cs : BitVec 4) (s : State) : (setCS cs s).outputs = s.outputs := rfl
@[simp] theorem setCS_draws (cs : BitVec 4) (s : State) : (setCS cs s).draws = s.draws := rfl
@[simp] theorem setCS_cfg (cs : BitVec 4) (s : State) : (setCS cs s).cfg = s.cfg := rfl

/-! ## An interrupt request -/

@[simp] theorem raiseInterrupt_regs (n : BitNo) (s : State) : (raiseInterrupt n s).regs = s.regs := rfl
@[simp] theorem raiseInterrupt_ic (n : BitNo) (s : State) : (raiseInterrupt n s).ic = s.ic := rfl
@[simp] theorem raiseInterrupt_sw (n : BitNo) (s : State) : (raiseInterrupt n s).sw = s.sw := rfl
@[simp] theorem raiseInterrupt_ft (n : BitNo) (s : State) : (raiseInterrupt n s).ft = s.ft := rfl
@[simp] theorem raiseInterrupt_mask (n : BitNo) (s : State) : (raiseInterrupt n s).mask = s.mask := rfl
@[simp] theorem raiseInterrupt_pi (n : BitNo) (s : State) : (raiseInterrupt n s).pi = s.pi ||| bitMask n := rfl
@[simp] theorem raiseInterrupt_ie (n : BitNo) (s : State) : (raiseInterrupt n s).ie = s.ie := rfl
@[simp] theorem raiseInterrupt_enblPending (n : BitNo) (s : State) : (raiseInterrupt n s).enblPending = s.enblPending := rfl
@[simp] theorem raiseInterrupt_enblIssued (n : BitNo) (s : State) : (raiseInterrupt n s).enblIssued = s.enblIssued := rfl
@[simp] theorem raiseInterrupt_piHold (n : BitNo) (s : State) : (raiseInterrupt n s).piHold = s.piHold := rfl
@[simp] theorem raiseInterrupt_halted (n : BitNo) (s : State) : (raiseInterrupt n s).halted = s.halted := rfl
@[simp] theorem raiseInterrupt_mem (n : BitNo) (s : State) : (raiseInterrupt n s).mem = s.mem := rfl
@[simp] theorem raiseInterrupt_pages (n : BitNo) (s : State) : (raiseInterrupt n s).pages = s.pages := rfl
@[simp] theorem raiseInterrupt_mprot (n : BitNo) (s : State) : (raiseInterrupt n s).mprot = s.mprot := rfl
@[simp] theorem raiseInterrupt_mprotEn (n : BitNo) (s : State) : (raiseInterrupt n s).mprotEn = s.mprotEn := rfl
@[simp] theorem raiseInterrupt_mfsr (n : BitNo) (s : State) : (raiseInterrupt n s).mfsr = s.mfsr := rfl
@[simp] theorem raiseInterrupt_ioic (n : BitNo) (s : State) : (raiseInterrupt n s).ioic = s.ioic := rfl
@[simp] theorem raiseInterrupt_timers (n : BitNo) (s : State) : (raiseInterrupt n s).timers = s.timers := rfl
@[simp] theorem raiseInterrupt_romEn (n : BitNo) (s : State) : (raiseInterrupt n s).romEn = s.romEn := rfl
@[simp] theorem raiseInterrupt_dmaEn (n : BitNo) (s : State) : (raiseInterrupt n s).dmaEn = s.dmaEn := rfl
@[simp] theorem raiseInterrupt_npu (n : BitNo) (s : State) : (raiseInterrupt n s).npu = s.npu := rfl
@[simp] theorem raiseInterrupt_goRun (n : BitNo) (s : State) : (raiseInterrupt n s).goRun = s.goRun := rfl
@[simp] theorem raiseInterrupt_dout (n : BitNo) (s : State) : (raiseInterrupt n s).dout = s.dout := rfl
@[simp] theorem raiseInterrupt_din (n : BitNo) (s : State) : (raiseInterrupt n s).din = s.din := rfl
@[simp] theorem raiseInterrupt_pobuf (n : BitNo) (s : State) : (raiseInterrupt n s).pobuf = s.pobuf := rfl
@[simp] theorem raiseInterrupt_console (n : BitNo) (s : State) : (raiseInterrupt n s).console = s.console := rfl
@[simp] theorem raiseInterrupt_parityBad (n : BitNo) (s : State) : (raiseInterrupt n s).parityBad = s.parityBad := rfl
@[simp] theorem raiseInterrupt_env (n : BitNo) (s : State) : (raiseInterrupt n s).env = s.env := rfl
@[simp] theorem raiseInterrupt_outputs (n : BitNo) (s : State) : (raiseInterrupt n s).outputs = s.outputs := rfl
@[simp] theorem raiseInterrupt_draws (n : BitNo) (s : State) : (raiseInterrupt n s).draws = s.draws := rfl
@[simp] theorem raiseInterrupt_cfg (n : BitNo) (s : State) : (raiseInterrupt n s).cfg = s.cfg := rfl

/-! ## The end of an interrupt request -/

@[simp] theorem clearPending_regs (n : BitNo) (s : State) : (clearPending n s).regs = s.regs := rfl
@[simp] theorem clearPending_ic (n : BitNo) (s : State) : (clearPending n s).ic = s.ic := rfl
@[simp] theorem clearPending_sw (n : BitNo) (s : State) : (clearPending n s).sw = s.sw := rfl
@[simp] theorem clearPending_ft (n : BitNo) (s : State) : (clearPending n s).ft = s.ft := rfl
@[simp] theorem clearPending_mask (n : BitNo) (s : State) : (clearPending n s).mask = s.mask := rfl
@[simp] theorem clearPending_pi (n : BitNo) (s : State) : (clearPending n s).pi = s.pi &&& ~~~bitMask n := rfl
@[simp] theorem clearPending_ie (n : BitNo) (s : State) : (clearPending n s).ie = s.ie := rfl
@[simp] theorem clearPending_enblPending (n : BitNo) (s : State) : (clearPending n s).enblPending = s.enblPending := rfl
@[simp] theorem clearPending_enblIssued (n : BitNo) (s : State) : (clearPending n s).enblIssued = s.enblIssued := rfl
@[simp] theorem clearPending_piHold (n : BitNo) (s : State) : (clearPending n s).piHold = s.piHold := rfl
@[simp] theorem clearPending_halted (n : BitNo) (s : State) : (clearPending n s).halted = s.halted := rfl
@[simp] theorem clearPending_mem (n : BitNo) (s : State) : (clearPending n s).mem = s.mem := rfl
@[simp] theorem clearPending_pages (n : BitNo) (s : State) : (clearPending n s).pages = s.pages := rfl
@[simp] theorem clearPending_mprot (n : BitNo) (s : State) : (clearPending n s).mprot = s.mprot := rfl
@[simp] theorem clearPending_mprotEn (n : BitNo) (s : State) : (clearPending n s).mprotEn = s.mprotEn := rfl
@[simp] theorem clearPending_mfsr (n : BitNo) (s : State) : (clearPending n s).mfsr = s.mfsr := rfl
@[simp] theorem clearPending_ioic (n : BitNo) (s : State) : (clearPending n s).ioic = s.ioic := rfl
@[simp] theorem clearPending_timers (n : BitNo) (s : State) : (clearPending n s).timers = s.timers := rfl
@[simp] theorem clearPending_romEn (n : BitNo) (s : State) : (clearPending n s).romEn = s.romEn := rfl
@[simp] theorem clearPending_dmaEn (n : BitNo) (s : State) : (clearPending n s).dmaEn = s.dmaEn := rfl
@[simp] theorem clearPending_npu (n : BitNo) (s : State) : (clearPending n s).npu = s.npu := rfl
@[simp] theorem clearPending_goRun (n : BitNo) (s : State) : (clearPending n s).goRun = s.goRun := rfl
@[simp] theorem clearPending_dout (n : BitNo) (s : State) : (clearPending n s).dout = s.dout := rfl
@[simp] theorem clearPending_din (n : BitNo) (s : State) : (clearPending n s).din = s.din := rfl
@[simp] theorem clearPending_pobuf (n : BitNo) (s : State) : (clearPending n s).pobuf = s.pobuf := rfl
@[simp] theorem clearPending_console (n : BitNo) (s : State) : (clearPending n s).console = s.console := rfl
@[simp] theorem clearPending_parityBad (n : BitNo) (s : State) : (clearPending n s).parityBad = s.parityBad := rfl
@[simp] theorem clearPending_env (n : BitNo) (s : State) : (clearPending n s).env = s.env := rfl
@[simp] theorem clearPending_outputs (n : BitNo) (s : State) : (clearPending n s).outputs = s.outputs := rfl
@[simp] theorem clearPending_draws (n : BitNo) (s : State) : (clearPending n s).draws = s.draws := rfl
@[simp] theorem clearPending_cfg (n : BitNo) (s : State) : (clearPending n s).cfg = s.cfg := rfl

/-! ## The disabling of interrupts -/

@[simp] theorem disableInterrupts_regs (s : State) : (disableInterrupts s).regs = s.regs := rfl
@[simp] theorem disableInterrupts_ic (s : State) : (disableInterrupts s).ic = s.ic := rfl
@[simp] theorem disableInterrupts_sw (s : State) : (disableInterrupts s).sw = s.sw := rfl
@[simp] theorem disableInterrupts_ft (s : State) : (disableInterrupts s).ft = s.ft := rfl
@[simp] theorem disableInterrupts_mask (s : State) : (disableInterrupts s).mask = s.mask := rfl
@[simp] theorem disableInterrupts_pi (s : State) : (disableInterrupts s).pi = s.pi := rfl
@[simp] theorem disableInterrupts_ie (s : State) : (disableInterrupts s).ie = false := rfl
@[simp] theorem disableInterrupts_enblPending (s : State) : (disableInterrupts s).enblPending = false := rfl
@[simp] theorem disableInterrupts_enblIssued (s : State) : (disableInterrupts s).enblIssued = false := rfl
@[simp] theorem disableInterrupts_piHold (s : State) : (disableInterrupts s).piHold = s.piHold := rfl
@[simp] theorem disableInterrupts_halted (s : State) : (disableInterrupts s).halted = s.halted := rfl
@[simp] theorem disableInterrupts_mem (s : State) : (disableInterrupts s).mem = s.mem := rfl
@[simp] theorem disableInterrupts_pages (s : State) : (disableInterrupts s).pages = s.pages := rfl
@[simp] theorem disableInterrupts_mprot (s : State) : (disableInterrupts s).mprot = s.mprot := rfl
@[simp] theorem disableInterrupts_mprotEn (s : State) : (disableInterrupts s).mprotEn = s.mprotEn := rfl
@[simp] theorem disableInterrupts_mfsr (s : State) : (disableInterrupts s).mfsr = s.mfsr := rfl
@[simp] theorem disableInterrupts_ioic (s : State) : (disableInterrupts s).ioic = s.ioic := rfl
@[simp] theorem disableInterrupts_timers (s : State) : (disableInterrupts s).timers = s.timers := rfl
@[simp] theorem disableInterrupts_romEn (s : State) : (disableInterrupts s).romEn = s.romEn := rfl
@[simp] theorem disableInterrupts_dmaEn (s : State) : (disableInterrupts s).dmaEn = s.dmaEn := rfl
@[simp] theorem disableInterrupts_npu (s : State) : (disableInterrupts s).npu = s.npu := rfl
@[simp] theorem disableInterrupts_goRun (s : State) : (disableInterrupts s).goRun = s.goRun := rfl
@[simp] theorem disableInterrupts_dout (s : State) : (disableInterrupts s).dout = s.dout := rfl
@[simp] theorem disableInterrupts_din (s : State) : (disableInterrupts s).din = s.din := rfl
@[simp] theorem disableInterrupts_pobuf (s : State) : (disableInterrupts s).pobuf = s.pobuf := rfl
@[simp] theorem disableInterrupts_console (s : State) : (disableInterrupts s).console = s.console := rfl
@[simp] theorem disableInterrupts_parityBad (s : State) : (disableInterrupts s).parityBad = s.parityBad := rfl
@[simp] theorem disableInterrupts_env (s : State) : (disableInterrupts s).env = s.env := rfl
@[simp] theorem disableInterrupts_outputs (s : State) : (disableInterrupts s).outputs = s.outputs := rfl
@[simp] theorem disableInterrupts_draws (s : State) : (disableInterrupts s).draws = s.draws := rfl
@[simp] theorem disableInterrupts_cfg (s : State) : (disableInterrupts s).cfg = s.cfg := rfl

/-! ## A write of a physical word -/

@[simp] theorem physWrite_regs (s : State) (p : PAddr) (v : Word) : (physWrite s p v).regs = s.regs := rfl
@[simp] theorem physWrite_ic (s : State) (p : PAddr) (v : Word) : (physWrite s p v).ic = s.ic := rfl
@[simp] theorem physWrite_sw (s : State) (p : PAddr) (v : Word) : (physWrite s p v).sw = s.sw := rfl
@[simp] theorem physWrite_ft (s : State) (p : PAddr) (v : Word) : (physWrite s p v).ft = s.ft := rfl
@[simp] theorem physWrite_mask (s : State) (p : PAddr) (v : Word) : (physWrite s p v).mask = s.mask := rfl
@[simp] theorem physWrite_pi (s : State) (p : PAddr) (v : Word) : (physWrite s p v).pi = s.pi := rfl
@[simp] theorem physWrite_ie (s : State) (p : PAddr) (v : Word) : (physWrite s p v).ie = s.ie := rfl
@[simp] theorem physWrite_enblPending (s : State) (p : PAddr) (v : Word) : (physWrite s p v).enblPending = s.enblPending := rfl
@[simp] theorem physWrite_enblIssued (s : State) (p : PAddr) (v : Word) : (physWrite s p v).enblIssued = s.enblIssued := rfl
@[simp] theorem physWrite_piHold (s : State) (p : PAddr) (v : Word) : (physWrite s p v).piHold = s.piHold := rfl
@[simp] theorem physWrite_halted (s : State) (p : PAddr) (v : Word) : (physWrite s p v).halted = s.halted := rfl
@[simp] theorem physWrite_mem (s : State) (p : PAddr) (v : Word) : (physWrite s p v).mem = Memory.writeWord s.mem p v := rfl
@[simp] theorem physWrite_pages (s : State) (p : PAddr) (v : Word) : (physWrite s p v).pages = s.pages := rfl
@[simp] theorem physWrite_mprot (s : State) (p : PAddr) (v : Word) : (physWrite s p v).mprot = s.mprot := rfl
@[simp] theorem physWrite_mprotEn (s : State) (p : PAddr) (v : Word) : (physWrite s p v).mprotEn = s.mprotEn := rfl
@[simp] theorem physWrite_mfsr (s : State) (p : PAddr) (v : Word) : (physWrite s p v).mfsr = s.mfsr := rfl
@[simp] theorem physWrite_ioic (s : State) (p : PAddr) (v : Word) : (physWrite s p v).ioic = s.ioic := rfl
@[simp] theorem physWrite_timers (s : State) (p : PAddr) (v : Word) : (physWrite s p v).timers = s.timers := rfl
@[simp] theorem physWrite_romEn (s : State) (p : PAddr) (v : Word) : (physWrite s p v).romEn = s.romEn := rfl
@[simp] theorem physWrite_dmaEn (s : State) (p : PAddr) (v : Word) : (physWrite s p v).dmaEn = s.dmaEn := rfl
@[simp] theorem physWrite_npu (s : State) (p : PAddr) (v : Word) : (physWrite s p v).npu = s.npu := rfl
@[simp] theorem physWrite_goRun (s : State) (p : PAddr) (v : Word) : (physWrite s p v).goRun = s.goRun := rfl
@[simp] theorem physWrite_dout (s : State) (p : PAddr) (v : Word) : (physWrite s p v).dout = s.dout := rfl
@[simp] theorem physWrite_din (s : State) (p : PAddr) (v : Word) : (physWrite s p v).din = s.din := rfl
@[simp] theorem physWrite_pobuf (s : State) (p : PAddr) (v : Word) : (physWrite s p v).pobuf = s.pobuf := rfl
@[simp] theorem physWrite_console (s : State) (p : PAddr) (v : Word) : (physWrite s p v).console = s.console := rfl
@[simp] theorem physWrite_parityBad (s : State) (p : PAddr) (v : Word) : (physWrite s p v).parityBad = s.parityBad := rfl
@[simp] theorem physWrite_env (s : State) (p : PAddr) (v : Word) : (physWrite s p v).env = s.env := rfl
@[simp] theorem physWrite_outputs (s : State) (p : PAddr) (v : Word) : (physWrite s p v).outputs = s.outputs := rfl
@[simp] theorem physWrite_draws (s : State) (p : PAddr) (v : Word) : (physWrite s p v).draws = s.draws := rfl
@[simp] theorem physWrite_cfg (s : State) (p : PAddr) (v : Word) : (physWrite s p v).cfg = s.cfg := rfl

/-! ## A jump -/

@[simp] theorem jumpTo_regs (a : Word) (s : State) : (jumpTo a s).regs = s.regs := rfl
@[simp] theorem jumpTo_ic (a : Word) (s : State) : (jumpTo a s).ic = a := rfl
@[simp] theorem jumpTo_sw (a : Word) (s : State) : (jumpTo a s).sw = s.sw := rfl
@[simp] theorem jumpTo_ft (a : Word) (s : State) : (jumpTo a s).ft = s.ft := rfl
@[simp] theorem jumpTo_mask (a : Word) (s : State) : (jumpTo a s).mask = s.mask := rfl
@[simp] theorem jumpTo_pi (a : Word) (s : State) : (jumpTo a s).pi = s.pi := rfl
@[simp] theorem jumpTo_ie (a : Word) (s : State) : (jumpTo a s).ie = s.ie := rfl
@[simp] theorem jumpTo_enblPending (a : Word) (s : State) : (jumpTo a s).enblPending = s.enblPending := rfl
@[simp] theorem jumpTo_enblIssued (a : Word) (s : State) : (jumpTo a s).enblIssued = s.enblIssued := rfl
@[simp] theorem jumpTo_piHold (a : Word) (s : State) : (jumpTo a s).piHold = s.piHold := rfl
@[simp] theorem jumpTo_halted (a : Word) (s : State) : (jumpTo a s).halted = s.halted := rfl
@[simp] theorem jumpTo_mem (a : Word) (s : State) : (jumpTo a s).mem = s.mem := rfl
@[simp] theorem jumpTo_pages (a : Word) (s : State) : (jumpTo a s).pages = s.pages := rfl
@[simp] theorem jumpTo_mprot (a : Word) (s : State) : (jumpTo a s).mprot = s.mprot := rfl
@[simp] theorem jumpTo_mprotEn (a : Word) (s : State) : (jumpTo a s).mprotEn = s.mprotEn := rfl
@[simp] theorem jumpTo_mfsr (a : Word) (s : State) : (jumpTo a s).mfsr = s.mfsr := rfl
@[simp] theorem jumpTo_ioic (a : Word) (s : State) : (jumpTo a s).ioic = s.ioic := rfl
@[simp] theorem jumpTo_timers (a : Word) (s : State) : (jumpTo a s).timers = s.timers := rfl
@[simp] theorem jumpTo_romEn (a : Word) (s : State) : (jumpTo a s).romEn = s.romEn := rfl
@[simp] theorem jumpTo_dmaEn (a : Word) (s : State) : (jumpTo a s).dmaEn = s.dmaEn := rfl
@[simp] theorem jumpTo_npu (a : Word) (s : State) : (jumpTo a s).npu = s.npu := rfl
@[simp] theorem jumpTo_goRun (a : Word) (s : State) : (jumpTo a s).goRun = s.goRun := rfl
@[simp] theorem jumpTo_dout (a : Word) (s : State) : (jumpTo a s).dout = s.dout := rfl
@[simp] theorem jumpTo_din (a : Word) (s : State) : (jumpTo a s).din = s.din := rfl
@[simp] theorem jumpTo_pobuf (a : Word) (s : State) : (jumpTo a s).pobuf = s.pobuf := rfl
@[simp] theorem jumpTo_console (a : Word) (s : State) : (jumpTo a s).console = s.console := rfl
@[simp] theorem jumpTo_parityBad (a : Word) (s : State) : (jumpTo a s).parityBad = s.parityBad := rfl
@[simp] theorem jumpTo_env (a : Word) (s : State) : (jumpTo a s).env = s.env := rfl
@[simp] theorem jumpTo_outputs (a : Word) (s : State) : (jumpTo a s).outputs = s.outputs := rfl
@[simp] theorem jumpTo_draws (a : Word) (s : State) : (jumpTo a s).draws = s.draws := rfl
@[simp] theorem jumpTo_cfg (a : Word) (s : State) : (jumpTo a s).cfg = s.cfg := rfl

/-! ## The advance of the instruction counter -/

@[simp] theorem advance_regs (k : Nat) (s : State) : (advance k s).regs = s.regs := rfl
@[simp] theorem advance_ic (k : Nat) (s : State) : (advance k s).ic = s.ic + BitVec.ofNat 16 k := rfl
@[simp] theorem advance_sw (k : Nat) (s : State) : (advance k s).sw = s.sw := rfl
@[simp] theorem advance_ft (k : Nat) (s : State) : (advance k s).ft = s.ft := rfl
@[simp] theorem advance_mask (k : Nat) (s : State) : (advance k s).mask = s.mask := rfl
@[simp] theorem advance_pi (k : Nat) (s : State) : (advance k s).pi = s.pi := rfl
@[simp] theorem advance_ie (k : Nat) (s : State) : (advance k s).ie = s.ie := rfl
@[simp] theorem advance_enblPending (k : Nat) (s : State) : (advance k s).enblPending = s.enblPending := rfl
@[simp] theorem advance_enblIssued (k : Nat) (s : State) : (advance k s).enblIssued = s.enblIssued := rfl
@[simp] theorem advance_piHold (k : Nat) (s : State) : (advance k s).piHold = s.piHold := rfl
@[simp] theorem advance_halted (k : Nat) (s : State) : (advance k s).halted = s.halted := rfl
@[simp] theorem advance_mem (k : Nat) (s : State) : (advance k s).mem = s.mem := rfl
@[simp] theorem advance_pages (k : Nat) (s : State) : (advance k s).pages = s.pages := rfl
@[simp] theorem advance_mprot (k : Nat) (s : State) : (advance k s).mprot = s.mprot := rfl
@[simp] theorem advance_mprotEn (k : Nat) (s : State) : (advance k s).mprotEn = s.mprotEn := rfl
@[simp] theorem advance_mfsr (k : Nat) (s : State) : (advance k s).mfsr = s.mfsr := rfl
@[simp] theorem advance_ioic (k : Nat) (s : State) : (advance k s).ioic = s.ioic := rfl
@[simp] theorem advance_timers (k : Nat) (s : State) : (advance k s).timers = s.timers := rfl
@[simp] theorem advance_romEn (k : Nat) (s : State) : (advance k s).romEn = s.romEn := rfl
@[simp] theorem advance_dmaEn (k : Nat) (s : State) : (advance k s).dmaEn = s.dmaEn := rfl
@[simp] theorem advance_npu (k : Nat) (s : State) : (advance k s).npu = s.npu := rfl
@[simp] theorem advance_goRun (k : Nat) (s : State) : (advance k s).goRun = s.goRun := rfl
@[simp] theorem advance_dout (k : Nat) (s : State) : (advance k s).dout = s.dout := rfl
@[simp] theorem advance_din (k : Nat) (s : State) : (advance k s).din = s.din := rfl
@[simp] theorem advance_pobuf (k : Nat) (s : State) : (advance k s).pobuf = s.pobuf := rfl
@[simp] theorem advance_console (k : Nat) (s : State) : (advance k s).console = s.console := rfl
@[simp] theorem advance_parityBad (k : Nat) (s : State) : (advance k s).parityBad = s.parityBad := rfl
@[simp] theorem advance_env (k : Nat) (s : State) : (advance k s).env = s.env := rfl
@[simp] theorem advance_outputs (k : Nat) (s : State) : (advance k s).outputs = s.outputs := rfl
@[simp] theorem advance_draws (k : Nat) (s : State) : (advance k s).draws = s.draws := rfl
@[simp] theorem advance_cfg (k : Nat) (s : State) : (advance k s).cfg = s.cfg := rfl

/-! ## The draw of a free value -/

@[simp] theorem drawWord_snd_regs (s : State) : ((drawWord s).2).regs = s.regs := rfl
@[simp] theorem drawWord_snd_ic (s : State) : ((drawWord s).2).ic = s.ic := rfl
@[simp] theorem drawWord_snd_sw (s : State) : ((drawWord s).2).sw = s.sw := rfl
@[simp] theorem drawWord_snd_ft (s : State) : ((drawWord s).2).ft = s.ft := rfl
@[simp] theorem drawWord_snd_mask (s : State) : ((drawWord s).2).mask = s.mask := rfl
@[simp] theorem drawWord_snd_pi (s : State) : ((drawWord s).2).pi = s.pi := rfl
@[simp] theorem drawWord_snd_ie (s : State) : ((drawWord s).2).ie = s.ie := rfl
@[simp] theorem drawWord_snd_enblPending (s : State) : ((drawWord s).2).enblPending = s.enblPending := rfl
@[simp] theorem drawWord_snd_enblIssued (s : State) : ((drawWord s).2).enblIssued = s.enblIssued := rfl
@[simp] theorem drawWord_snd_piHold (s : State) : ((drawWord s).2).piHold = s.piHold := rfl
@[simp] theorem drawWord_snd_halted (s : State) : ((drawWord s).2).halted = s.halted := rfl
@[simp] theorem drawWord_snd_mem (s : State) : ((drawWord s).2).mem = s.mem := rfl
@[simp] theorem drawWord_snd_pages (s : State) : ((drawWord s).2).pages = s.pages := rfl
@[simp] theorem drawWord_snd_mprot (s : State) : ((drawWord s).2).mprot = s.mprot := rfl
@[simp] theorem drawWord_snd_mprotEn (s : State) : ((drawWord s).2).mprotEn = s.mprotEn := rfl
@[simp] theorem drawWord_snd_mfsr (s : State) : ((drawWord s).2).mfsr = s.mfsr := rfl
@[simp] theorem drawWord_snd_ioic (s : State) : ((drawWord s).2).ioic = s.ioic := rfl
@[simp] theorem drawWord_snd_timers (s : State) : ((drawWord s).2).timers = s.timers := rfl
@[simp] theorem drawWord_snd_romEn (s : State) : ((drawWord s).2).romEn = s.romEn := rfl
@[simp] theorem drawWord_snd_dmaEn (s : State) : ((drawWord s).2).dmaEn = s.dmaEn := rfl
@[simp] theorem drawWord_snd_npu (s : State) : ((drawWord s).2).npu = s.npu := rfl
@[simp] theorem drawWord_snd_goRun (s : State) : ((drawWord s).2).goRun = s.goRun := rfl
@[simp] theorem drawWord_snd_dout (s : State) : ((drawWord s).2).dout = s.dout := rfl
@[simp] theorem drawWord_snd_din (s : State) : ((drawWord s).2).din = s.din := rfl
@[simp] theorem drawWord_snd_pobuf (s : State) : ((drawWord s).2).pobuf = s.pobuf := rfl
@[simp] theorem drawWord_snd_console (s : State) : ((drawWord s).2).console = s.console := rfl
@[simp] theorem drawWord_snd_parityBad (s : State) : ((drawWord s).2).parityBad = s.parityBad := rfl
@[simp] theorem drawWord_snd_env (s : State) : ((drawWord s).2).env = s.env := rfl
@[simp] theorem drawWord_snd_outputs (s : State) : ((drawWord s).2).outputs = s.outputs := rfl
@[simp] theorem drawWord_snd_draws (s : State) : ((drawWord s).2).draws = s.draws + 1 := rfl
@[simp] theorem drawWord_snd_cfg (s : State) : ((drawWord s).2).cfg = s.cfg := rfl

/-! ## The word of a device -/

@[simp] theorem drawInput_snd_regs (c : Word) (s : State) : ((drawInput c s).2).regs = s.regs := rfl
@[simp] theorem drawInput_snd_ic (c : Word) (s : State) : ((drawInput c s).2).ic = s.ic := rfl
@[simp] theorem drawInput_snd_sw (c : Word) (s : State) : ((drawInput c s).2).sw = s.sw := rfl
@[simp] theorem drawInput_snd_ft (c : Word) (s : State) : ((drawInput c s).2).ft = s.ft := rfl
@[simp] theorem drawInput_snd_mask (c : Word) (s : State) : ((drawInput c s).2).mask = s.mask := rfl
@[simp] theorem drawInput_snd_pi (c : Word) (s : State) : ((drawInput c s).2).pi = s.pi := rfl
@[simp] theorem drawInput_snd_ie (c : Word) (s : State) : ((drawInput c s).2).ie = s.ie := rfl
@[simp] theorem drawInput_snd_enblPending (c : Word) (s : State) : ((drawInput c s).2).enblPending = s.enblPending := rfl
@[simp] theorem drawInput_snd_enblIssued (c : Word) (s : State) : ((drawInput c s).2).enblIssued = s.enblIssued := rfl
@[simp] theorem drawInput_snd_piHold (c : Word) (s : State) : ((drawInput c s).2).piHold = s.piHold := rfl
@[simp] theorem drawInput_snd_halted (c : Word) (s : State) : ((drawInput c s).2).halted = s.halted := rfl
@[simp] theorem drawInput_snd_mem (c : Word) (s : State) : ((drawInput c s).2).mem = s.mem := rfl
@[simp] theorem drawInput_snd_pages (c : Word) (s : State) : ((drawInput c s).2).pages = s.pages := rfl
@[simp] theorem drawInput_snd_mprot (c : Word) (s : State) : ((drawInput c s).2).mprot = s.mprot := rfl
@[simp] theorem drawInput_snd_mprotEn (c : Word) (s : State) : ((drawInput c s).2).mprotEn = s.mprotEn := rfl
@[simp] theorem drawInput_snd_mfsr (c : Word) (s : State) : ((drawInput c s).2).mfsr = s.mfsr := rfl
@[simp] theorem drawInput_snd_ioic (c : Word) (s : State) : ((drawInput c s).2).ioic = s.ioic := rfl
@[simp] theorem drawInput_snd_timers (c : Word) (s : State) : ((drawInput c s).2).timers = s.timers := rfl
@[simp] theorem drawInput_snd_romEn (c : Word) (s : State) : ((drawInput c s).2).romEn = s.romEn := rfl
@[simp] theorem drawInput_snd_dmaEn (c : Word) (s : State) : ((drawInput c s).2).dmaEn = s.dmaEn := rfl
@[simp] theorem drawInput_snd_npu (c : Word) (s : State) : ((drawInput c s).2).npu = s.npu := rfl
@[simp] theorem drawInput_snd_goRun (c : Word) (s : State) : ((drawInput c s).2).goRun = s.goRun := rfl
@[simp] theorem drawInput_snd_dout (c : Word) (s : State) : ((drawInput c s).2).dout = s.dout := rfl
@[simp] theorem drawInput_snd_din (c : Word) (s : State) : ((drawInput c s).2).din = s.din := rfl
@[simp] theorem drawInput_snd_pobuf (c : Word) (s : State) : ((drawInput c s).2).pobuf = s.pobuf := rfl
@[simp] theorem drawInput_snd_console (c : Word) (s : State) : ((drawInput c s).2).console = s.console := rfl
@[simp] theorem drawInput_snd_parityBad (c : Word) (s : State) : ((drawInput c s).2).parityBad = s.parityBad := rfl
@[simp] theorem drawInput_snd_env (c : Word) (s : State) : ((drawInput c s).2).env = s.env := rfl
@[simp] theorem drawInput_snd_outputs (c : Word) (s : State) : ((drawInput c s).2).outputs = s.outputs := rfl
@[simp] theorem drawInput_snd_draws (c : Word) (s : State) : ((drawInput c s).2).draws = s.draws + 1 := rfl
@[simp] theorem drawInput_snd_cfg (c : Word) (s : State) : ((drawInput c s).2).cfg = s.cfg := rfl

end Sys2Proof.Machine
end

