-- ==== Sys2Proof/Laws/Ops.lean ====
section
/-! SUPPORT. What each shared operation does, said once. -/

namespace Sys2Proof.Machine

/-! ## General registers -/

theorem State.reg_setReg (s : State) (r q : Reg) (v : Word) : (s.setReg r v).reg q = if q = r then v else s.reg q := by
  simp only [State.reg, State.setReg, Vector.get_eq_getElem, Vector.getElem_set, Fin.ext_iff]
  by_cases h : r.val = q.val <;> simp [h, eq_comm]

@[simp] theorem State.reg_setReg_same (s : State) (r : Reg) (v : Word) : (s.setReg r v).reg r = v := by
  simp [State.reg_setReg]

theorem State.reg_setReg_other (s : State) {r q : Reg} (v : Word) (h : q ≠ r) : (s.setReg r v).reg q = s.reg q := by
  simp [State.reg_setReg, h]

/-- Two adjacent registers differ, also across R15. -/
@[simp] theorem reg_succ_ne (r : Reg) : r + 1 ≠ r := by
  revert r
  decide

@[simp] theorem reg_ne_succ (r : Reg) : r ≠ r + 1 := (reg_succ_ne r).symm

@[simp] theorem reg_succ2_ne (r : Reg) : r + 2 ≠ r := by
  revert r
  decide

@[simp] theorem reg_ne_succ2 (r : Reg) : r ≠ r + 2 := (reg_succ2_ne r).symm

@[simp] theorem reg_succ2_ne_succ (r : Reg) : r + 2 ≠ r + 1 := by
  revert r
  decide

@[simp] theorem reg_succ_ne_succ2 (r : Reg) : r + 1 ≠ r + 2 := (reg_succ2_ne_succ r).symm

theorem State.reg_setPair (s : State) (r q : Reg) (v : DWord) : (s.setPair r v).reg q =
    if q = r + 1 then v.extractLsb' 0 16 else if q = r then v.extractLsb' 16 16 else s.reg q := by
  simp [State.setPair, State.reg_setReg]

theorem State.reg_setTriple (s : State) (r q : Reg) (v : TWord) : (s.setTriple r v).reg q =
    if q = r + 2 then v.extractLsb' 0 16 else if q = r + 1 then v.extractLsb' 16 16
    else if q = r then v.extractLsb' 32 16 else s.reg q := by
  simp [State.setTriple, State.reg_setReg]

theorem wordHalves (v : DWord) : v.extractLsb' 16 16 ++ v.extractLsb' 0 16 = v := by
  ext i hi
  simp only [BitVec.getElem_append, BitVec.getElem_extractLsb']
  split
  · simp [BitVec.getLsbD_eq_getElem hi]
  · rw [show 16 + (i - 16) = i by omega, BitVec.getLsbD_eq_getElem hi]

theorem wordThirds (v : TWord) : (v.extractLsb' 32 16 ++ v.extractLsb' 16 16) ++ v.extractLsb' 0 16 = v := by
  ext i hi
  simp only [BitVec.getElem_append, BitVec.getElem_extractLsb']
  split
  · simp [BitVec.getLsbD_eq_getElem hi]
  · split
    · rw [show 16 + (i - 16) = i by omega, BitVec.getLsbD_eq_getElem hi]
    · rw [show 32 + (i - 16 - 16) = i by omega, BitVec.getLsbD_eq_getElem hi]

/-- What is written to a register pair is read back. -/
@[simp] theorem State.pair_setPair (s : State) (r : Reg) (v : DWord) : (s.setPair r v).pair r = v := by
  simp [State.pair, State.reg_setPair, wordHalves]

/-- What is written to three registers is read back. -/
@[simp] theorem State.triple_setTriple (s : State) (r : Reg) (v : TWord) : (s.setTriple r v).triple r = v := by
  simp [State.triple, State.reg_setTriple, wordThirds]

@[simp] theorem setCS_reg (cs : BitVec 4) (s : State) (r : Reg) : (setCS cs s).reg r = s.reg r := rfl

@[simp] theorem setCS_pair (cs : BitVec 4) (s : State) (r : Reg) : (setCS cs s).pair r = s.pair r := rfl

@[simp] theorem setCS_triple (cs : BitVec 4) (s : State) (r : Reg) : (setCS cs s).triple r = s.triple r := rfl

@[simp] theorem raiseInterrupt_reg (n : BitNo) (s : State) (r : Reg) : (raiseInterrupt n s).reg r = s.reg r := rfl

@[simp] theorem raiseInterrupt_pair (n : BitNo) (s : State) (r : Reg) : (raiseInterrupt n s).pair r = s.pair r := rfl

@[simp] theorem raiseInterrupt_triple (n : BitNo) (s : State) (r : Reg) : (raiseInterrupt n s).triple r = s.triple r := rfl

@[simp] theorem jumpTo_reg (a : Word) (s : State) (r : Reg) : (jumpTo a s).reg r = s.reg r := rfl

@[simp] theorem physWrite_reg (s : State) (p : PAddr) (v : Word) (r : Reg) : (physWrite s p v).reg r = s.reg r := rfl

/-! ## The status word -/

@[simp] theorem csOf_withCS (sw : Word) (cs : BitVec 4) : csOf (withCS sw cs) = cs := by
  ext i hi
  simp only [csOf, withCS, BitVec.getElem_extractLsb', BitVec.getLsbD_append]
  rw [if_neg (by omega), show 12 + i - 12 = i by omega, BitVec.getLsbD_eq_getElem hi]

/-- A write of CS keeps the reserved bits, PS and AS. -/
@[simp] theorem statusRest_withCS (sw : Word) (cs : BitVec 4) : (withCS sw cs).extractLsb' 0 12 = sw.extractLsb' 0 12 := by
  ext i hi
  simp only [withCS, BitVec.getElem_extractLsb', BitVec.getLsbD_append]
  rw [if_pos (by omega)]
  simp only [BitVec.getLsbD_extractLsb']
  rw [show 0 + (0 + i) = 0 + i by omega]
  simp
  omega

theorem psOf_eq_of_rest {v w : Word} (h : v.extractLsb' 0 12 = w.extractLsb' 0 12) : psOf v = psOf w := by
  have e : ∀ x : Word, psOf x = (x.extractLsb' 0 12).extractLsb' 4 4 := fun x => by
    ext i hi
    simp only [psOf, BitVec.getElem_extractLsb', BitVec.getLsbD_extractLsb']
    rw [show 0 + (4 + i) = 4 + i by omega]
    simp
    omega
  rw [e, e, h]

theorem asOf_eq_of_rest {v w : Word} (h : v.extractLsb' 0 12 = w.extractLsb' 0 12) : asOf v = asOf w := by
  have e : ∀ x : Word, asOf x = (x.extractLsb' 0 12).extractLsb' 0 4 := fun x => by
    ext i hi
    simp only [asOf, BitVec.getElem_extractLsb', BitVec.getLsbD_extractLsb']
    rw [show 0 + (0 + i) = 0 + i by omega]
    simp
    omega
  rw [e, e, h]

@[simp] theorem psOf_withCS (sw : Word) (cs : BitVec 4) : psOf (withCS sw cs) = psOf sw := psOf_eq_of_rest (by simp)

@[simp] theorem asOf_withCS (sw : Word) (cs : BitVec 4) : asOf (withCS sw cs) = asOf sw := asOf_eq_of_rest (by simp)

/-- A write of CS does not change how operands are referenced. -/
@[simp] theorem operAccess_setCS (cs : BitVec 4) (s : State) : operAccess (setCS cs s) = operAccess s := by
  simp [operAccess]

/-- The sign of a pattern is the sign of its number. -/
theorem csSign_eq {w : Nat} (x : BitVec w) : csSign x = signCS x.toInt := by
  have h0 : x.toInt = 0 ↔ x = 0#w := by
    rw [← BitVec.toInt_inj]
    simp
  unfold csSign signCS csZero csNegative csPositive
  by_cases hx : x = 0#w
  · simp [hx]
  · rw [if_neg hx, if_neg (fun h => hx (h0.1 h)), BitVec.msb_eq_toInt]
    simp

/-- The condition status of a comparison is the order of its operands. -/
theorem csCompare_eq (a b : Int) : csCompare a b = orderCS a b := rfl

/-! ## Faults and interrupt requests -/

/-- All that a fault can do. -/
theorem raiseFault_cases (k : BitNo) (s : State) :
    (bitAt s.cfg.ftImplemented k = true ∧ raiseFault k s = { s with ft := s.ft ||| bitMask k, pi := s.pi ||| bitMask 1 }) ∨
      (bitAt s.cfg.ftImplemented k = false ∧ raiseFault k s = s) := by
  unfold raiseFault
  cases bitAt s.cfg.ftImplemented k <;> simp [raiseInterrupt]

/-- A fault changes FT and PI alone. -/
theorem raiseFault_frame (k : BitNo) (s : State) :
    raiseFault k s = { s with ft := (raiseFault k s).ft, pi := (raiseFault k s).pi } := by
  rcases raiseFault_cases k s with ⟨_, h⟩ | ⟨_, h⟩ <;> rw [h]

/-- A fault clears no bit of FT. -/
theorem raiseFault_ft_keeps (k : BitNo) (s : State) : s.ft &&& (raiseFault k s).ft = s.ft := by
  rcases raiseFault_cases k s with ⟨_, h⟩ | ⟨_, h⟩ <;> rw [h]
  · ext i hi
    simp
    exact fun a => Or.inl a
  · simp

/-- A fault clears no bit of PI. -/
theorem raiseFault_pi_keeps (k : BitNo) (s : State) : s.pi &&& (raiseFault k s).pi = s.pi := by
  rcases raiseFault_cases k s with ⟨_, h⟩ | ⟨_, h⟩ <;> rw [h]
  · ext i hi
    simp
    exact fun a => Or.inl a
  · simp

/-- A conditional request sets its bit of PI when the condition holds, and nothing else. -/
theorem raiseIf_eq (c : Bool) (n : BitNo) (s : State) :
    raiseIf c n s = { s with pi := if c then s.pi ||| bitMask n else s.pi } := by
  cases c <;> rfl

/-! ## Memory references -/

theorem selectedPage_congr {s t : State} (h1 : t.cfg = s.cfg) (h2 : t.pages = s.pages) (a : Access) (l : Word) :
    selectedPage t a l = selectedPage s a l := by
  unfold selectedPage pageRegister
  rw [h1, h2]

theorem translate_congr {s t : State} (h1 : t.cfg = s.cfg) (h2 : t.pages = s.pages) (a : Access) (l : Word) :
    translate t a l = translate s a l := by
  unfold translate
  rw [h1, selectedPage_congr h1 h2]

theorem physFault_congr {s t : State} (h1 : t.cfg = s.cfg) (h3 : t.mprot = s.mprot) (h4 : t.mprotEn = s.mprotEn)
    (h5 : t.parityBad = s.parityBad) (g : Agent) (wr : Bool) (p : PAddr) : physFault t g wr p = physFault s g wr p := by
  unfold physFault writeProtected blockProtected
  rw [h1, h3, h4, h5]

/-- What a reference can do depends on the parameters, the page file, the protection RAM and the parity errors alone. -/
theorem refFault_congr {s t : State} (h1 : t.cfg = s.cfg) (h2 : t.pages = s.pages) (h3 : t.mprot = s.mprot)
    (h4 : t.mprotEn = s.mprotEn) (h5 : t.parityBad = s.parityBad) (g : Agent) (a : Access) (wr : Bool) (l : Word) :
    refFault t g a wr l = refFault s g a wr l := by
  unfold refFault pageFault
  rw [h1, selectedPage_congr h1 h2, translate_congr h1 h2, physFault_congr h1 h3 h4 h5]

theorem romWord_congr {s t : State} (h1 : t.cfg = s.cfg) (h2 : t.romEn = s.romEn) (p : PAddr) : romWord t p = romWord s p := by
  simp only [romWord, h1, h2]

theorem physRead_congr {s t : State} (h1 : t.cfg = s.cfg) (h2 : t.romEn = s.romEn) (h3 : t.mem = s.mem) (p : PAddr) :
    physRead t p = physRead s p := by
  simp only [physRead, romWord_congr h1 h2, h3]

/-- What a faulting reference leaves differs in FT, PI and the memory fault status alone. -/
theorem memFault_frame (g : Agent) (a : Access) (l : Word) (f : RefFault) (s : State) :
    memFault g a l f s = { s with
      ft := (raiseFault (f.ftBit g) s).ft, pi := (raiseFault (f.ftBit g) s).pi, mfsr := (memFault g a l f s).mfsr } := by
  have h := raiseFault_frame (f.ftBit g) s
  unfold memFault captureMfsr
  generalize raiseFault (f.ftBit g) s = u at h ⊢
  rw [h]
  split <;> rfl

/-- A read that passes. -/
theorem readNow_of_none {a : Access} {l : Word} {s : State} (h : refFault s .cpu a false l = none) :
    readNow a l s = .ok (physRead s (translate s a l)) := by
  simp [readNow, h]

/-- All that a read can do: the word, or the fault of the reference. -/
theorem readNow_cases (a : Access) (l : Word) (s : State) :
    (refFault s .cpu a false l = none ∧ readNow a l s = .ok (physRead s (translate s a l))) ∨
      ∃ f, refFault s .cpu a false l = some f ∧ readNow a l s = .error (memFault .cpu a l f s) := by
  unfold readNow
  cases h : refFault s .cpu a false l with
  | none => exact .inl ⟨rfl, rfl⟩
  | some f => exact .inr ⟨f, rfl, rfl⟩

/-- A read that gave a word passed and gave the word of the physical address. -/
theorem readNow_ok {a : Access} {l v : Word} {s : State} (h : readNow a l s = .ok v) :
    refFault s .cpu a false l = none ∧ v = physRead s (translate s a l) := by
  rcases readNow_cases a l s with ⟨h1, h2⟩ | ⟨f, _, h2⟩
  · rw [h2] at h
    exact ⟨h1, by injection h with h; exact h.symm⟩
  · rw [h2] at h
    cases h

/-- All that a write can do: the word stored, a suppressed store, or another fault. -/
theorem writeNow_cases (a : Access) (l v : Word) (s : State) :
    (refFault s .cpu a true l = none ∧ writeNow a l v s = .ok (physWrite s (translate s a l) v)) ∨
      (refFault s .cpu a true l = some .writeProtect ∧ writeNow a l v s = .ok (memFault .cpu a l .writeProtect s)) ∨
      ∃ f, f ≠ .writeProtect ∧ refFault s .cpu a true l = some f ∧ writeNow a l v s = .error (memFault .cpu a l f s) := by
  unfold writeNow
  cases h : refFault s .cpu a true l with
  | none => exact .inl ⟨rfl, rfl⟩
  | some f => cases f <;> simp

/-- A read is the same in two states that agree on what a reference depends on and on memory. -/
theorem readNow_congr {s t : State} (h1 : t.cfg = s.cfg) (h2 : t.pages = s.pages) (h3 : t.mprot = s.mprot)
    (h4 : t.mprotEn = s.mprotEn) (h5 : t.parityBad = s.parityBad) (h6 : t.romEn = s.romEn) (h7 : t.mem = s.mem)
    {a : Access} {l v : Word} (h : readNow a l s = .ok v) : readNow a l t = .ok v := by
  obtain ⟨hf, hv⟩ := readNow_ok h
  rw [readNow_of_none (by rw [refFault_congr h1 h2 h3 h4 h5]; exact hf), hv, physRead_congr h1 h6 h7,
    translate_congr h1 h2]

/-! ## Turns of the environment -/

/-- Without a schedule the environment does nothing. -/
theorem takeTurn_of_nil {s : State} (h : s.env = []) : takeTurn s = .ok s := by simp [takeTurn, h]

/-- An empty turn. -/
theorem takeTurn_of_empty {s : State} {later : List (List Event)} (h : s.env = [] :: later) :
    takeTurn s = .ok { s with env := later } := by
  simp [takeTurn, h, applyEvents]

/-- A quiet turn leaves the state, its list taken off the schedule. -/
theorem takeTurn_of_quiet {n : Nat} {s : State} (h : QuietFor (n + 1) s) : takeTurn s = .ok (afterTurns 1 s) := by
  have h0 := h 0 (Nat.succ_pos n)
  cases he : s.env with
  | nil =>
    rw [takeTurn_of_nil he, afterTurns, he]
    cases s
    simp_all
  | cons x later =>
    have hx : x = [] := by simpa [he] using h0
    subst hx
    rw [takeTurn_of_empty he]
    simp [afterTurns, he]

/-- Turns in which the environment did nothing do not change what a read delivers. -/
theorem readNow_afterTurns {n : Nat} {a : Access} {l v : Word} {s : State} (h : readNow a l s = .ok v) :
    readNow a l (afterTurns n s) = .ok v :=
  readNow_congr (s := s) (t := afterTurns n s) rfl rfl rfl rfl rfl rfl rfl h

/-- After a quiet turn the following ones are quiet. -/
theorem QuietFor.tail {n : Nat} {s : State} (h : QuietFor (n + 1) s) : QuietFor n (afterTurns 1 s) := fun k hk => by
  have h1 := h (k + 1) (Nat.succ_lt_succ hk)
  simpa [afterTurns, Nat.add_comm] using h1

@[simp] theorem afterTurns_afterTurns (m n : Nat) (s : State) : afterTurns m (afterTurns n s) = afterTurns (n + m) s := by
  simp [afterTurns, List.drop_drop]

/-- What an event other than a reset leaves as it was. -/
def EventKeeps (s t : State) : Prop :=
  t = { s with
    ft := t.ft, pi := t.pi, halted := t.halted, mem := t.mem, mfsr := t.mfsr, ioic := t.ioic, timers := t.timers,
    goRun := t.goRun, din := t.din, console := t.console, parityBad := t.parityBad, env := t.env, outputs := t.outputs }

theorem EventKeeps.refl (s : State) : EventKeeps s s := rfl

theorem EventKeeps.trans {s t u : State} (h1 : EventKeeps s t) (h2 : EventKeeps t u) : EventKeeps s u := by
  unfold EventKeeps at *
  rw [h2, h1]

/-- An event that is not a reset leaves every register of the CPU, the enables and the protection state as they were. -/
theorem applyEvent_keeps {e : Event} {s t : State} (hr : e.isReset = false) (h : applyEvent e s = some t) : EventKeeps s t := by
  have hf : ∀ (k : BitNo) (s : State), EventKeeps s (raiseFault k s) := fun k s => by
    rw [raiseFault_frame]
    rfl
  have hm : ∀ (g : Agent) (a : Access) (l : Word) (f : RefFault) (s : State), EventKeeps s (memFault g a l f s) :=
    fun g a l f s => by
      rw [memFault_frame]
      rfl
  have hc : ∀ (l g : BitVec 4) (k : RefKind) (s t : State), EventKeeps s t → EventKeeps s (captureMfsr l k g t) :=
    fun l g k s t h => by
      refine h.trans ?_
      unfold captureMfsr
      split <;> rfl
  have ht : ∀ (p : PAddr) (op : DeviceOp) (s : State), EventKeeps s (deviceTransfer p op s) := fun p op s => by
    cases op <;> rfl
  have hi : ∀ (c : Bool) (n : BitNo) (s t : State), EventKeeps s t → EventKeeps s (raiseIf c n t) := fun c n s t h => by
    refine h.trans ?_
    cases c <;> rfl
  cases e <;> simp only [applyEvent, Option.some.injEq, Event.isReset, Bool.true_eq_false, reduceCtorEq] at h hr
  case tickA =>
    subst h
    unfold tickTimerA
    split
    · exact hi _ _ _ _ rfl
    · rfl
  case tickB =>
    subst h
    unfold tickTimerB
    split
    · exact hi _ _ _ _ rfl
    · rfl
  case request n => subst h; exact hi _ _ _ _ rfl
  case ioRequest l c =>
    subst h
    unfold channelRequest
    split <;> split <;> rfl
  case device d op =>
    subst h
    unfold deviceAccess
    split
    · cases d with
      | mapped g k l =>
        dsimp only
        split
        · exact hm _ _ _ _ _
        · exact ht _ _ _
      | unmapped p =>
        dsimp only
        split
        · exact hc _ _ _ _ _ (hf _ _)
        · exact ht _ _ _
    · rfl
  case platformFault k =>
    subst h
    unfold platformFault
    split
    · exact hf _ _
    · rfl
  all_goals subst h; rfl

/-- All that the events of a turn can do when the step goes on: no reset is among them. -/
theorem applyEvents_keeps : ∀ {es : List Event} {s t : State}, applyEvents es s = .ok t → EventKeeps s t
  | [], s, t, h => by
    cases h
    rfl
  | e :: rest, s, t, h => by
    unfold applyEvents at h
    split at h
    · cases h
    · next u hu =>
      split at h
      · cases h
      · next hr => exact (applyEvent_keeps (by simpa using hr) hu).trans (applyEvents_keeps h)

/-- All that a turn can do when the step goes on. -/
theorem takeTurn_keeps {s u : State} (h : takeTurn s = .ok u) : EventKeeps s u := by
  unfold takeTurn at h
  split at h
  · cases h
    rfl
  · next later _ => exact EventKeeps.trans (t := { s with env := later }) rfl (applyEvents_keeps h)

/-! ## References with their turn -/

/-- All that reading an operand word can do: a turn that ends the step, a fault, or the word and the state after the turn. -/
theorem load_cases (a : Word) (s : State) :
    (∃ o, takeTurn s = .error o ∧ load a s = .error o) ∨ ∃ u, takeTurn s = .ok u ∧
      ((∃ e, readNow (operAccess s) a u = .error e ∧ load a s = .error (.next e)) ∨
        ∃ w, readNow (operAccess s) a u = .ok w ∧ load a s = .ok (w, u)) := by
  unfold load readRef
  cases ht : takeTurn s with
  | error o => exact .inl ⟨o, rfl, rfl⟩
  | ok u =>
    refine .inr ⟨u, rfl, ?_⟩
    cases hr : readNow (operAccess s) a u with
    | error e => exact .inl ⟨e, rfl, by simp [hr]⟩
    | ok w => exact .inr ⟨w, rfl, by simp [hr]⟩

/-- A word that was read: the turn before it went on, and the read passed. -/
theorem load_ok {a w : Word} {s u : State} (h : load a s = .ok (w, u)) :
    takeTurn s = .ok u ∧ readNow (operAccess s) a u = .ok w := by
  rcases load_cases a s with ⟨o, _, h2⟩ | ⟨v, hv, ⟨e, _, h2⟩ | ⟨x, hx, h2⟩⟩ <;> rw [h2] at h
  · cases h
  · cases h
  · cases h
    exact ⟨hv, hx⟩

/-- A load in a quiet turn. -/
theorem load_of_quiet {n : Nat} {a w : Word} {s : State} (hq : QuietFor (n + 1) s) (h : Reads s a w) :
    load a s = .ok (w, afterTurns 1 s) := by
  have h' : readNow (operAccess s) a (afterTurns 1 s) = .ok w := readNow_afterTurns h
  simp [load, readRef, takeTurn_of_quiet hq, h']

/-- A store that passes, after its turn. -/
theorem store_of_writable {s u : State} {a : Word} (v : Word) (ht : takeTurn s = .ok u) (h : Writable u a) :
    store a v s = .ok { u with mem := Memory.writeWord u.mem (physOf u a) v } := by
  have hs : operAccess s = operAccess u := by rw [takeTurn_keeps ht]; rfl
  unfold Writable at h
  simp [store, writeRef, ht, orAbandon, writeNow, hs, h, physWrite, physOf]

/-- A store with no turn before it. -/
theorem storeNow_of_writable {s : State} {a : Word} (v : Word) (h : Writable s a) :
    storeNow a v s = .ok { s with mem := Memory.writeWord s.mem (physOf s a) v } := by
  unfold Writable at h
  simp [storeNow, orAbandon, writeNow, h, physWrite, physOf]

@[simp] theorem andThen_ok {α : Type} (v : α) (k : α → Out) : andThen (.ok v) k = k v := rfl

@[simp] theorem andThen_error {α : Type} (o : Out) (k : α → Out) : andThen (.error o) k = o := rfl

@[simp] theorem orAbandon_ok {α : Type} (v : α) : orAbandon (.ok v) = .ok v := rfl

@[simp] theorem orAbandon_error {α : Type} (s : State) : orAbandon (.error s : Except State α) = .error (.next s) := rfl

theorem captureMfsr_mem (lpa : BitVec 4) (k : RefKind) (g : BitVec 4) (s : State) : (captureMfsr lpa k g s).mem = s.mem := by
  unfold captureMfsr
  split <;> rfl

@[simp] theorem memFault_mem (g : Agent) (a : Access) (l : Word) (f : RefFault) (s : State) : (memFault g a l f s).mem = s.mem := by
  rw [memFault_frame]

@[simp] theorem raiseFault_mem (k : BitNo) (s : State) : (raiseFault k s).mem = s.mem := by rw [raiseFault_frame]

/-- Every event keeps the canonical form of memory, a reset too. -/
theorem applyEvent_wf {e : Event} {s t : State} (h : applyEvent e s = some t) (hw : Memory.wf s.mem = true) :
    Memory.wf t.mem = true := by
  have htr : ∀ (p : PAddr) (op : DeviceOp), Memory.wf (deviceTransfer p op s).mem = true := fun p op => by
    cases op
    · exact hw
    · exact Memory.wf_writeWord _ _ hw
  cases e <;> simp only [applyEvent, Option.some.injEq, reduceCtorEq] at h
  case tickA =>
    subst h
    unfold tickTimerA raiseIf
    split <;> (try split) <;> exact hw
  case tickB =>
    subst h
    unfold tickTimerB raiseIf
    split <;> (try split) <;> exact hw
  case request n =>
    subst h
    unfold externalRequest raiseIf
    split <;> exact hw
  case ioRequest l c =>
    subst h
    unfold channelRequest
    split <;> split <;> exact hw
  case device d op =>
    subst h
    unfold deviceAccess
    split
    · cases d with
      | mapped g k l =>
        dsimp only
        split
        · simpa using hw
        · exact htr _ _
      | unmapped p =>
        dsimp only
        split
        · rw [captureMfsr_mem, raiseFault_mem]
          exact hw
        · exact htr _ _
    · exact hw
  case platformFault k =>
    subst h
    unfold platformFault
    split
    · simpa using hw
    · exact hw
  case powerUp image =>
    subst h
    exact Memory.wf_ofImage image
  all_goals subst h; exact hw

theorem applyEvents_wf : ∀ {es : List Event} {s t : State}, applyEvents es s = .ok t → Memory.wf s.mem = true →
    Memory.wf t.mem = true
  | [], s, t, h, hw => by
    cases h
    exact hw
  | e :: rest, s, t, h, hw => by
    unfold applyEvents at h
    split at h
    · cases h
    · next u hu =>
      split at h
      · cases h
      · exact applyEvents_wf h (applyEvent_wf hu hw)

/-- A turn of the environment keeps the canonical form of memory. -/
theorem takeTurn_wf {s t : State} (h : takeTurn s = .ok t) (hw : Memory.wf s.mem = true) : Memory.wf t.mem = true := by
  unfold takeTurn at h
  split at h
  · cases h
    exact hw
  · next now later _ => exact applyEvents_wf (s := { s with env := later }) h hw

/-! ## What a fault of a reference shows -/

/-- The memory fault status that a capture leaves. -/
theorem captureMfsr_shows (lpa : BitVec 4) (k : RefKind) (g : BitVec 4) {s t : State} (hc : t.cfg = s.cfg)
    (hm : t.mfsr = s.mfsr) : MfsrShows lpa (if k = .instr then 1#1 else 0#1) g s (captureMfsr lpa k g t) := by
  unfold MfsrShows captureMfsr
  rw [hc]
  refine ⟨fun h => by simp [h, hm], fun h => ?_⟩
  have key : ∀ (x y : BitVec 4) (b : Bool),
      ((x.zeroExtend 16 <<< 12) ||| ((if b then 1#16 else 0#16) <<< 4)) ||| (y.zeroExtend 16 <<< 0) =
        ((x ++ 0#7) ++ (if b then 1#1 else 0#1)) ++ y := by decide +kernel
  have := key lpa g (decide (k = .instr))
  simpa [h, MfsrLayout.adopted] using this

/-- All that a faulting reference by logical address leaves. -/
theorem memFault_refFaulted (g : Agent) (a : Access) (l : Word) (f : RefFault) (s : State) :
    RefFaulted (f.ftBit g) a l s (memFault g a l f s) :=
  ⟨by
    unfold memFault captureMfsr
    split <;> rfl,
   captureMfsr_shows _ _ _ (by rw [raiseFault_frame]) (by rw [raiseFault_frame])⟩

/-- All that storing an operand word can do: a turn that ends the step, the word stored, a suppressed store, or another
fault. -/
theorem store_cases (a v : Word) (s : State) :
    (∃ o, takeTurn s = .error o ∧ store a v s = .error o) ∨ ∃ u, takeTurn s = .ok u ∧
      ((Writable u a ∧ store a v s = .ok { u with mem := Memory.writeWord u.mem (physOf u a) v }) ∨
        (refFault u .cpu (operAccess u) true a = some .writeProtect ∧
          store a v s = .ok (memFault .cpu (operAccess u) a .writeProtect u)) ∨
        ∃ f, f ≠ .writeProtect ∧ refFault u .cpu (operAccess u) true a = some f ∧
          store a v s = .error (.next (memFault .cpu (operAccess u) a f u))) := by
  cases ht : takeTurn s with
  | error o => exact .inl ⟨o, rfl, by simp [store, writeRef, ht]⟩
  | ok u =>
    have hs : operAccess s = operAccess u := by
      rw [takeTurn_keeps ht]
      rfl
    refine .inr ⟨u, rfl, ?_⟩
    unfold store writeRef Writable physOf
    rcases writeNow_cases (operAccess u) a v u with ⟨h1, h2⟩ | ⟨h1, h2⟩ | ⟨f, hf, h1, h2⟩
    · exact .inl ⟨h1, by simp [ht, hs, h2, physWrite]⟩
    · exact .inr (.inl ⟨h1, by simp [ht, hs, h2]⟩)
    · exact .inr (.inr ⟨f, hf, h1, by simp [ht, hs, h2]⟩)

/-! ## Operands -/

theorem withWord_of_load {a d : Word} {s u : State} (k : Word → State → Out) (h : load a s = .ok (d, u)) :
    withWord a s k = k d u := by
  simp [withWord, h]

theorem withDouble_of_load2 {a : Word} {d : DWord} {s u : State} (k : DWord → State → Out) (h : load2 a s = .ok (d, u)) :
    withDouble a s k = k d u := by
  simp [withDouble, h]

theorem withTriple_of_load3 {a : Word} {d : TWord} {s u : State} (k : TWord → State → Out) (h : load3 a s = .ok (d, u)) :
    withTriple a s k = k d u := by
  simp [withTriple, h]

theorem withPointer_of_load {rx : Reg} {addr a : Word} {s u : State} (k : Word → State → Out)
    (h : daIndirect rx addr s = .ok (a, u)) : withPointer rx addr s k = k a u := by
  simp [withPointer, h]

/-! ## Loading a new state -/

/-- All that loading a status word can do. -/
theorem loadSW_eq (v : Word) (s : State) :
    loadSW v s = if groupImplemented s.cfg (asOf v) then { s with sw := v } else raiseFault 11 { s with sw := v } := rfl

/-- A read of the interrupt sequence that passes, after a quiet turn. -/
theorem withVector_of_read {n : Nat} {a v : Word} {s : State} (k : Word → State → Out) (hq : QuietFor (n + 1) s)
    (h : readNow vectorAccess a s = .ok v) : withVector a s k = k v (afterTurns 1 s) := by
  have h' : readNow vectorAccess a (afterTurns 1 s) = .ok v := readNow_afterTurns h
  simp [withVector, vectorRead, takeTurn_of_quiet hq, h']

/-- A store of the interrupt sequence that passes stores its word, after a quiet turn. -/
theorem linkageWrite_of_none {n : Nat} {w a v : Word} {s : State} (hq : QuietFor (n + 1) s)
    (h : refFault s .cpu (linkageAccess w) true a = none) :
    linkageWrite w a v s = .ok (physWrite (afterTurns 1 s) (translate s (linkageAccess w) a) v) := by
  have h' : refFault (afterTurns 1 s) .cpu (linkageAccess w) true a = none := by
    rw [← h]
    exact refFault_congr rfl rfl rfl rfl rfl _ _ _ _
  have e : translate (afterTurns 1 s) (linkageAccess w) a = translate s (linkageAccess w) a := translate_congr rfl rfl _ _
  simp [linkageWrite, takeTurn_of_quiet hq, writeNow, h', e]

/-! ## Fetching -/

/-- A fault of a reference leaves IC where it was put before it. -/
theorem memFault_advance (g : Agent) (a : Access) (l : Word) (f : RefFault) (k : Nat) (s : State) :
    memFault g a l f (advance k s) = advance k (memFault g a l f s) := by
  unfold memFault captureMfsr advance raiseFault mfsrGroup
  cases bitAt s.cfg.ftImplemented (f.ftBit g) <;> cases hm : s.cfg.mfsr <;> simp [raiseInterrupt, hm]

/-- A read does not depend on IC. -/
theorem readNow_advance_ok {a : Access} {l w : Word} {s : State} (k : Nat) (h : readNow a l s = .ok w) :
    readNow a l (advance k s) = .ok w := readNow_congr (s := s) (t := advance k s) rfl rfl rfl rfl rfl rfl rfl h

theorem readNow_advance_error {a : Access} {l : Word} {s e : State} (k : Nat) (h : readNow a l s = .error e) :
    readNow a l (advance k s) = .error (advance k e) := by
  have hf : refFault (advance k s) .cpu a false l = refFault s .cpu a false l := refFault_congr rfl rfl rfl rfl rfl _ _ _ _
  rcases readNow_cases a l s with ⟨_, h2⟩ | ⟨f, h1, h2⟩
  · rw [h2] at h
    cases h
  · rw [h2] at h
    injection h with h
    subst h
    simp [readNow, hf, h1, memFault_advance]

/-- A word of an instruction that can be read moves IC past it. -/
theorem fetchNow_of_ok {s : State} {w : Word} (h : readNow (fetchAccess s) s.ic s = .ok w) :
    fetchNow s = .ok (w, advance 1 s) := by
  simp [fetchNow, readNow_advance_ok 1 h]

/-- A word of an instruction that cannot be read leaves its fault, with IC past it too. -/
theorem fetchNow_of_error {s e : State} (h : readNow (fetchAccess s) s.ic s = .error e) :
    fetchNow s = .error (.next (advance 1 e)) := by
  simp [fetchNow, readNow_advance_error 1 h]

/-- A running processor executes one instruction after its turn. -/
theorem step_of_running {s u : State} (h : takeTurn s = .ok u) (hh : u.halted = false) : step s = runInstruction u := by
  simp [step, h, hh]

/-- In the state PS = 0 a privileged instruction goes on. -/
theorem privileged_of_zero {s : State} (k : Out) (h : psOf s.sw = 0x0#4) : privileged s k = k := by simp [privileged, h]

/-- In any other state it traps. -/
theorem privileged_of_ne {s : State} (k : Out) (h : psOf s.sw ≠ 0x0#4) : privileged s k = .next (raiseFault 10 s) := by
  simp [privileged, h]

end Sys2Proof.Machine
end

