-- ==== Sys2Proof/Laws/PerInstr.lean ====
section
/-! SUPPORT. One family of statements about every instruction as syntax: its encoding has the length of its format (30_encoding R250). -/

namespace Sys2Proof.Laws

/-- The encoding of the instruction has as many words as its format. -/
def EncodeLength.Statement (i : Instr) : Prop := (encode i).length = i.words

theorem EncodeLength.xio (ra rx : Reg) (addr : Word) : EncodeLength.Statement (.xio ra rx addr) := rfl
theorem EncodeLength.vio (ra rx : Reg) (addr : Word) : EncodeLength.Statement (.vio ra rx addr) := rfl
theorem EncodeLength.sb (n : Fin 16) (rx : Reg) (addr : Word) : EncodeLength.Statement (.sb n rx addr) := rfl
theorem EncodeLength.sbr (n : BitNo) (rb : Reg) : EncodeLength.Statement (.sbr n rb) := rfl
theorem EncodeLength.sbi (n : Fin 16) (rx : Reg) (addr : Word) : EncodeLength.Statement (.sbi n rx addr) := rfl
theorem EncodeLength.rb (n : Fin 16) (rx : Reg) (addr : Word) : EncodeLength.Statement (.rb n rx addr) := rfl
theorem EncodeLength.rbr (n : BitNo) (rb : Reg) : EncodeLength.Statement (.rbr n rb) := rfl
theorem EncodeLength.rbi (n : Fin 16) (rx : Reg) (addr : Word) : EncodeLength.Statement (.rbi n rx addr) := rfl
theorem EncodeLength.tb (n : Fin 16) (rx : Reg) (addr : Word) : EncodeLength.Statement (.tb n rx addr) := rfl
theorem EncodeLength.tbr (n : BitNo) (rb : Reg) : EncodeLength.Statement (.tbr n rb) := rfl
theorem EncodeLength.tbi (n : Fin 16) (rx : Reg) (addr : Word) : EncodeLength.Statement (.tbi n rx addr) := rfl
theorem EncodeLength.tsb (n : Fin 16) (rx : Reg) (addr : Word) : EncodeLength.Statement (.tsb n rx addr) := rfl
theorem EncodeLength.svbr (ra rb : Reg) : EncodeLength.Statement (.svbr ra rb) := rfl
theorem EncodeLength.rvbr (ra rb : Reg) : EncodeLength.Statement (.rvbr ra rb) := rfl
theorem EncodeLength.tvbr (ra rb : Reg) : EncodeLength.Statement (.tvbr ra rb) := rfl
theorem EncodeLength.sll (rb : Reg) (n : Nat) : EncodeLength.Statement (.sll rb n) := rfl
theorem EncodeLength.srl (rb : Reg) (n : Nat) : EncodeLength.Statement (.srl rb n) := rfl
theorem EncodeLength.sra (rb : Reg) (n : Nat) : EncodeLength.Statement (.sra rb n) := rfl
theorem EncodeLength.slc (rb : Reg) (n : Nat) : EncodeLength.Statement (.slc rb n) := rfl
theorem EncodeLength.dsll (rb : Reg) (n : Nat) : EncodeLength.Statement (.dsll rb n) := rfl
theorem EncodeLength.dsrl (rb : Reg) (n : Nat) : EncodeLength.Statement (.dsrl rb n) := rfl
theorem EncodeLength.dsra (rb : Reg) (n : Nat) : EncodeLength.Statement (.dsra rb n) := rfl
theorem EncodeLength.dslc (rb : Reg) (n : Nat) : EncodeLength.Statement (.dslc rb n) := rfl
theorem EncodeLength.slr (ra rb : Reg) : EncodeLength.Statement (.slr ra rb) := rfl
theorem EncodeLength.sar (ra rb : Reg) : EncodeLength.Statement (.sar ra rb) := rfl
theorem EncodeLength.scr (ra rb : Reg) : EncodeLength.Statement (.scr ra rb) := rfl
theorem EncodeLength.dslr (ra rb : Reg) : EncodeLength.Statement (.dslr ra rb) := rfl
theorem EncodeLength.dsar (ra rb : Reg) : EncodeLength.Statement (.dsar ra rb) := rfl
theorem EncodeLength.dscr (ra rb : Reg) : EncodeLength.Statement (.dscr ra rb) := rfl
theorem EncodeLength.jc (c : BitVec 4) (rx : Reg) (addr : Word) : EncodeLength.Statement (.jc c rx addr) := rfl
theorem EncodeLength.jci (c : BitVec 4) (rx : Reg) (addr : Word) : EncodeLength.Statement (.jci c rx addr) := rfl
theorem EncodeLength.js (ra rx : Reg) (addr : Word) : EncodeLength.Statement (.js ra rx addr) := rfl
theorem EncodeLength.soj (ra rx : Reg) (addr : Word) : EncodeLength.Statement (.soj ra rx addr) := rfl
theorem EncodeLength.br (d : Byte) : EncodeLength.Statement (.br d) := rfl
theorem EncodeLength.bez (d : Byte) : EncodeLength.Statement (.bez d) := rfl
theorem EncodeLength.blt (d : Byte) : EncodeLength.Statement (.blt d) := rfl
theorem EncodeLength.ble (d : Byte) : EncodeLength.Statement (.ble d) := rfl
theorem EncodeLength.bgt (d : Byte) : EncodeLength.Statement (.bgt d) := rfl
theorem EncodeLength.bnz (d : Byte) : EncodeLength.Statement (.bnz d) := rfl
theorem EncodeLength.bge (d : Byte) : EncodeLength.Statement (.bge d) := rfl
theorem EncodeLength.bex (n : Fin 16) : EncodeLength.Statement (.bex n) := rfl
theorem EncodeLength.lsti (rx : Reg) (addr : Word) : EncodeLength.Statement (.lsti rx addr) := rfl
theorem EncodeLength.lst (rx : Reg) (addr : Word) : EncodeLength.Statement (.lst rx addr) := rfl
theorem EncodeLength.sjs (ra rx : Reg) (addr : Word) : EncodeLength.Statement (.sjs ra rx addr) := rfl
theorem EncodeLength.urs (ra : Reg) : EncodeLength.Statement (.urs ra) := rfl
theorem EncodeLength.l (ra rx : Reg) (addr : Word) : EncodeLength.Statement (.l ra rx addr) := rfl
theorem EncodeLength.lr (ra rb : Reg) : EncodeLength.Statement (.lr ra rb) := rfl
theorem EncodeLength.lisp (ra : Reg) (n : Nat) : EncodeLength.Statement (.lisp ra n) := rfl
theorem EncodeLength.lisn (ra : Reg) (n : Nat) : EncodeLength.Statement (.lisn ra n) := rfl
theorem EncodeLength.li (ra rx : Reg) (addr : Word) : EncodeLength.Statement (.li ra rx addr) := rfl
theorem EncodeLength.lim (ra rx : Reg) (addr : Word) : EncodeLength.Statement (.lim ra rx addr) := rfl
theorem EncodeLength.dl (ra rx : Reg) (addr : Word) : EncodeLength.Statement (.dl ra rx addr) := rfl
theorem EncodeLength.dlr (ra rb : Reg) : EncodeLength.Statement (.dlr ra rb) := rfl
theorem EncodeLength.dli (ra rx : Reg) (addr : Word) : EncodeLength.Statement (.dli ra rx addr) := rfl
theorem EncodeLength.lm (n : Fin 16) (rx : Reg) (addr : Word) : EncodeLength.Statement (.lm n rx addr) := rfl
theorem EncodeLength.efl (ra rx : Reg) (addr : Word) : EncodeLength.Statement (.efl ra rx addr) := rfl
theorem EncodeLength.lub (ra rx : Reg) (addr : Word) : EncodeLength.Statement (.lub ra rx addr) := rfl
theorem EncodeLength.llb (ra rx : Reg) (addr : Word) : EncodeLength.Statement (.llb ra rx addr) := rfl
theorem EncodeLength.lubi (ra rx : Reg) (addr : Word) : EncodeLength.Statement (.lubi ra rx addr) := rfl
theorem EncodeLength.llbi (ra rx : Reg) (addr : Word) : EncodeLength.Statement (.llbi ra rx addr) := rfl
theorem EncodeLength.popm (ra rb : Reg) : EncodeLength.Statement (.popm ra rb) := rfl
theorem EncodeLength.lb (br : Reg) (dspl : Byte) : EncodeLength.Statement (.lb br dspl) := rfl
theorem EncodeLength.dlb (br : Reg) (dspl : Byte) : EncodeLength.Statement (.dlb br dspl) := rfl
theorem EncodeLength.lbx (br rx : Reg) : EncodeLength.Statement (.lbx br rx) := rfl
theorem EncodeLength.dlbx (br rx : Reg) : EncodeLength.Statement (.dlbx br rx) := rfl
theorem EncodeLength.st (ra rx : Reg) (addr : Word) : EncodeLength.Statement (.st ra rx addr) := rfl
theorem EncodeLength.stc (n : Fin 16) (rx : Reg) (addr : Word) : EncodeLength.Statement (.stc n rx addr) := rfl
theorem EncodeLength.stci (n : Fin 16) (rx : Reg) (addr : Word) : EncodeLength.Statement (.stci n rx addr) := rfl
theorem EncodeLength.mov (ra rb : Reg) : EncodeLength.Statement (.mov ra rb) := rfl
theorem EncodeLength.sti (ra rx : Reg) (addr : Word) : EncodeLength.Statement (.sti ra rx addr) := rfl
theorem EncodeLength.dst (ra rx : Reg) (addr : Word) : EncodeLength.Statement (.dst ra rx addr) := rfl
theorem EncodeLength.srm (ra rx : Reg) (addr : Word) : EncodeLength.Statement (.srm ra rx addr) := rfl
theorem EncodeLength.dsti (ra rx : Reg) (addr : Word) : EncodeLength.Statement (.dsti ra rx addr) := rfl
theorem EncodeLength.stm (n : Fin 16) (rx : Reg) (addr : Word) : EncodeLength.Statement (.stm n rx addr) := rfl
theorem EncodeLength.efst (ra rx : Reg) (addr : Word) : EncodeLength.Statement (.efst ra rx addr) := rfl
theorem EncodeLength.stub (ra rx : Reg) (addr : Word) : EncodeLength.Statement (.stub ra rx addr) := rfl
theorem EncodeLength.stlb (ra rx : Reg) (addr : Word) : EncodeLength.Statement (.stlb ra rx addr) := rfl
theorem EncodeLength.subi (ra rx : Reg) (addr : Word) : EncodeLength.Statement (.subi ra rx addr) := rfl
theorem EncodeLength.slbi (ra rx : Reg) (addr : Word) : EncodeLength.Statement (.slbi ra rx addr) := rfl
theorem EncodeLength.pshm (ra rb : Reg) : EncodeLength.Statement (.pshm ra rb) := rfl
theorem EncodeLength.stb (br : Reg) (dspl : Byte) : EncodeLength.Statement (.stb br dspl) := rfl
theorem EncodeLength.dstb (br : Reg) (dspl : Byte) : EncodeLength.Statement (.dstb br dspl) := rfl
theorem EncodeLength.stbx (br rx : Reg) : EncodeLength.Statement (.stbx br rx) := rfl
theorem EncodeLength.dstx (br rx : Reg) : EncodeLength.Statement (.dstx br rx) := rfl
theorem EncodeLength.a (ra rx : Reg) (addr : Word) : EncodeLength.Statement (.a ra rx addr) := rfl
theorem EncodeLength.ar (ra rb : Reg) : EncodeLength.Statement (.ar ra rb) := rfl
theorem EncodeLength.aisp (ra : Reg) (n : Nat) : EncodeLength.Statement (.aisp ra n) := rfl
theorem EncodeLength.incm (n : Nat) (rx : Reg) (addr : Word) : EncodeLength.Statement (.incm n rx addr) := rfl
theorem EncodeLength.abs (ra rb : Reg) : EncodeLength.Statement (.abs ra rb) := rfl
theorem EncodeLength.dabs (ra rb : Reg) : EncodeLength.Statement (.dabs ra rb) := rfl
theorem EncodeLength.da (ra rx : Reg) (addr : Word) : EncodeLength.Statement (.da ra rx addr) := rfl
theorem EncodeLength.dar (ra rb : Reg) : EncodeLength.Statement (.dar ra rb) := rfl
theorem EncodeLength.ab (br : Reg) (dspl : Byte) : EncodeLength.Statement (.ab br dspl) := rfl
theorem EncodeLength.abx (br rx : Reg) : EncodeLength.Statement (.abx br rx) := rfl
theorem EncodeLength.aim (ra : Reg) (data : Word) : EncodeLength.Statement (.aim ra data) := rfl
theorem EncodeLength.s (ra rx : Reg) (addr : Word) : EncodeLength.Statement (.s ra rx addr) := rfl
theorem EncodeLength.sr (ra rb : Reg) : EncodeLength.Statement (.sr ra rb) := rfl
theorem EncodeLength.sisp (ra : Reg) (n : Nat) : EncodeLength.Statement (.sisp ra n) := rfl
theorem EncodeLength.decm (n : Nat) (rx : Reg) (addr : Word) : EncodeLength.Statement (.decm n rx addr) := rfl
theorem EncodeLength.neg (ra rb : Reg) : EncodeLength.Statement (.neg ra rb) := rfl
theorem EncodeLength.dneg (ra rb : Reg) : EncodeLength.Statement (.dneg ra rb) := rfl
theorem EncodeLength.ds (ra rx : Reg) (addr : Word) : EncodeLength.Statement (.ds ra rx addr) := rfl
theorem EncodeLength.dsr (ra rb : Reg) : EncodeLength.Statement (.dsr ra rb) := rfl
theorem EncodeLength.sbb (br : Reg) (dspl : Byte) : EncodeLength.Statement (.sbb br dspl) := rfl
theorem EncodeLength.sbbx (br rx : Reg) : EncodeLength.Statement (.sbbx br rx) := rfl
theorem EncodeLength.sim (ra : Reg) (data : Word) : EncodeLength.Statement (.sim ra data) := rfl
theorem EncodeLength.ms (ra rx : Reg) (addr : Word) : EncodeLength.Statement (.ms ra rx addr) := rfl
theorem EncodeLength.msr (ra rb : Reg) : EncodeLength.Statement (.msr ra rb) := rfl
theorem EncodeLength.misp (ra : Reg) (n : Nat) : EncodeLength.Statement (.misp ra n) := rfl
theorem EncodeLength.misn (ra : Reg) (n : Nat) : EncodeLength.Statement (.misn ra n) := rfl
theorem EncodeLength.m (ra rx : Reg) (addr : Word) : EncodeLength.Statement (.m ra rx addr) := rfl
theorem EncodeLength.mr (ra rb : Reg) : EncodeLength.Statement (.mr ra rb) := rfl
theorem EncodeLength.dm (ra rx : Reg) (addr : Word) : EncodeLength.Statement (.dm ra rx addr) := rfl
theorem EncodeLength.dmr (ra rb : Reg) : EncodeLength.Statement (.dmr ra rb) := rfl
theorem EncodeLength.mb (br : Reg) (dspl : Byte) : EncodeLength.Statement (.mb br dspl) := rfl
theorem EncodeLength.mbx (br rx : Reg) : EncodeLength.Statement (.mbx br rx) := rfl
theorem EncodeLength.mim (ra : Reg) (data : Word) : EncodeLength.Statement (.mim ra data) := rfl
theorem EncodeLength.msim (ra : Reg) (data : Word) : EncodeLength.Statement (.msim ra data) := rfl
theorem EncodeLength.dv (ra rx : Reg) (addr : Word) : EncodeLength.Statement (.dv ra rx addr) := rfl
theorem EncodeLength.dvr (ra rb : Reg) : EncodeLength.Statement (.dvr ra rb) := rfl
theorem EncodeLength.disp (ra : Reg) (n : Nat) : EncodeLength.Statement (.disp ra n) := rfl
theorem EncodeLength.disn (ra : Reg) (n : Nat) : EncodeLength.Statement (.disn ra n) := rfl
theorem EncodeLength.d (ra rx : Reg) (addr : Word) : EncodeLength.Statement (.d ra rx addr) := rfl
theorem EncodeLength.dr (ra rb : Reg) : EncodeLength.Statement (.dr ra rb) := rfl
theorem EncodeLength.dd (ra rx : Reg) (addr : Word) : EncodeLength.Statement (.dd ra rx addr) := rfl
theorem EncodeLength.ddr (ra rb : Reg) : EncodeLength.Statement (.ddr ra rb) := rfl
theorem EncodeLength.db (br : Reg) (dspl : Byte) : EncodeLength.Statement (.db br dspl) := rfl
theorem EncodeLength.dbx (br rx : Reg) : EncodeLength.Statement (.dbx br rx) := rfl
theorem EncodeLength.dim (ra : Reg) (data : Word) : EncodeLength.Statement (.dim ra data) := rfl
theorem EncodeLength.dvim (ra : Reg) (data : Word) : EncodeLength.Statement (.dvim ra data) := rfl
theorem EncodeLength.far (ra rb : Reg) : EncodeLength.Statement (.far ra rb) := rfl
theorem EncodeLength.fab (br : Reg) (dspl : Byte) : EncodeLength.Statement (.fab br dspl) := rfl
theorem EncodeLength.fabx (br rx : Reg) : EncodeLength.Statement (.fabx br rx) := rfl
theorem EncodeLength.fa (ra rx : Reg) (addr : Word) : EncodeLength.Statement (.fa ra rx addr) := rfl
theorem EncodeLength.efar (ra rb : Reg) : EncodeLength.Statement (.efar ra rb) := rfl
theorem EncodeLength.efa (ra rx : Reg) (addr : Word) : EncodeLength.Statement (.efa ra rx addr) := rfl
theorem EncodeLength.fabs (ra rb : Reg) : EncodeLength.Statement (.fabs ra rb) := rfl
theorem EncodeLength.fsr (ra rb : Reg) : EncodeLength.Statement (.fsr ra rb) := rfl
theorem EncodeLength.fsb (br : Reg) (dspl : Byte) : EncodeLength.Statement (.fsb br dspl) := rfl
theorem EncodeLength.fsbx (br rx : Reg) : EncodeLength.Statement (.fsbx br rx) := rfl
theorem EncodeLength.fs (ra rx : Reg) (addr : Word) : EncodeLength.Statement (.fs ra rx addr) := rfl
theorem EncodeLength.efsr (ra rb : Reg) : EncodeLength.Statement (.efsr ra rb) := rfl
theorem EncodeLength.efs (ra rx : Reg) (addr : Word) : EncodeLength.Statement (.efs ra rx addr) := rfl
theorem EncodeLength.fneg (ra rb : Reg) : EncodeLength.Statement (.fneg ra rb) := rfl
theorem EncodeLength.fmr (ra rb : Reg) : EncodeLength.Statement (.fmr ra rb) := rfl
theorem EncodeLength.fmb (br : Reg) (dspl : Byte) : EncodeLength.Statement (.fmb br dspl) := rfl
theorem EncodeLength.fmbx (br rx : Reg) : EncodeLength.Statement (.fmbx br rx) := rfl
theorem EncodeLength.fm (ra rx : Reg) (addr : Word) : EncodeLength.Statement (.fm ra rx addr) := rfl
theorem EncodeLength.efmr (ra rb : Reg) : EncodeLength.Statement (.efmr ra rb) := rfl
theorem EncodeLength.efm (ra rx : Reg) (addr : Word) : EncodeLength.Statement (.efm ra rx addr) := rfl
theorem EncodeLength.fdr (ra rb : Reg) : EncodeLength.Statement (.fdr ra rb) := rfl
theorem EncodeLength.fdb (br : Reg) (dspl : Byte) : EncodeLength.Statement (.fdb br dspl) := rfl
theorem EncodeLength.fdbx (br rx : Reg) : EncodeLength.Statement (.fdbx br rx) := rfl
theorem EncodeLength.fd (ra rx : Reg) (addr : Word) : EncodeLength.Statement (.fd ra rx addr) := rfl
theorem EncodeLength.efdr (ra rb : Reg) : EncodeLength.Statement (.efdr ra rb) := rfl
theorem EncodeLength.efd (ra rx : Reg) (addr : Word) : EncodeLength.Statement (.efd ra rx addr) := rfl
theorem EncodeLength.fix (ra rb : Reg) : EncodeLength.Statement (.fix ra rb) := rfl
theorem EncodeLength.flt (ra rb : Reg) : EncodeLength.Statement (.flt ra rb) := rfl
theorem EncodeLength.efix (ra rb : Reg) : EncodeLength.Statement (.efix ra rb) := rfl
theorem EncodeLength.eflt (ra rb : Reg) : EncodeLength.Statement (.eflt ra rb) := rfl
theorem EncodeLength.fcr (ra rb : Reg) : EncodeLength.Statement (.fcr ra rb) := rfl
theorem EncodeLength.fcb (br : Reg) (dspl : Byte) : EncodeLength.Statement (.fcb br dspl) := rfl
theorem EncodeLength.fcbx (br rx : Reg) : EncodeLength.Statement (.fcbx br rx) := rfl
theorem EncodeLength.fc (ra rx : Reg) (addr : Word) : EncodeLength.Statement (.fc ra rx addr) := rfl
theorem EncodeLength.efcr (ra rb : Reg) : EncodeLength.Statement (.efcr ra rb) := rfl
theorem EncodeLength.efc (ra rx : Reg) (addr : Word) : EncodeLength.Statement (.efc ra rx addr) := rfl
theorem EncodeLength.or (ra rx : Reg) (addr : Word) : EncodeLength.Statement (.or ra rx addr) := rfl
theorem EncodeLength.orr (ra rb : Reg) : EncodeLength.Statement (.orr ra rb) := rfl
theorem EncodeLength.and (ra rx : Reg) (addr : Word) : EncodeLength.Statement (.and ra rx addr) := rfl
theorem EncodeLength.andr (ra rb : Reg) : EncodeLength.Statement (.andr ra rb) := rfl
theorem EncodeLength.xor (ra rx : Reg) (addr : Word) : EncodeLength.Statement (.xor ra rx addr) := rfl
theorem EncodeLength.xorr (ra rb : Reg) : EncodeLength.Statement (.xorr ra rb) := rfl
theorem EncodeLength.n (ra rx : Reg) (addr : Word) : EncodeLength.Statement (.n ra rx addr) := rfl
theorem EncodeLength.nr (ra rb : Reg) : EncodeLength.Statement (.nr ra rb) := rfl
theorem EncodeLength.xbr (ra : Reg) : EncodeLength.Statement (.xbr ra) := rfl
theorem EncodeLength.xwr (ra rb : Reg) : EncodeLength.Statement (.xwr ra rb) := rfl
theorem EncodeLength.orb (br : Reg) (dspl : Byte) : EncodeLength.Statement (.orb br dspl) := rfl
theorem EncodeLength.andb (br : Reg) (dspl : Byte) : EncodeLength.Statement (.andb br dspl) := rfl
theorem EncodeLength.cb (br : Reg) (dspl : Byte) : EncodeLength.Statement (.cb br dspl) := rfl
theorem EncodeLength.cbx (br rx : Reg) : EncodeLength.Statement (.cbx br rx) := rfl
theorem EncodeLength.andx (br rx : Reg) : EncodeLength.Statement (.andx br rx) := rfl
theorem EncodeLength.orbx (br rx : Reg) : EncodeLength.Statement (.orbx br rx) := rfl
theorem EncodeLength.andm (ra : Reg) (data : Word) : EncodeLength.Statement (.andm ra data) := rfl
theorem EncodeLength.orim (ra : Reg) (data : Word) : EncodeLength.Statement (.orim ra data) := rfl
theorem EncodeLength.xorm (ra : Reg) (data : Word) : EncodeLength.Statement (.xorm ra data) := rfl
theorem EncodeLength.cim (ra : Reg) (data : Word) : EncodeLength.Statement (.cim ra data) := rfl
theorem EncodeLength.nim (ra : Reg) (data : Word) : EncodeLength.Statement (.nim ra data) := rfl
theorem EncodeLength.c (ra rx : Reg) (addr : Word) : EncodeLength.Statement (.c ra rx addr) := rfl
theorem EncodeLength.cr (ra rb : Reg) : EncodeLength.Statement (.cr ra rb) := rfl
theorem EncodeLength.cisp (ra : Reg) (n : Nat) : EncodeLength.Statement (.cisp ra n) := rfl
theorem EncodeLength.cisn (ra : Reg) (n : Nat) : EncodeLength.Statement (.cisn ra n) := rfl
theorem EncodeLength.cbl (ra rx : Reg) (addr : Word) : EncodeLength.Statement (.cbl ra rx addr) := rfl
theorem EncodeLength.dc (ra rx : Reg) (addr : Word) : EncodeLength.Statement (.dc ra rx addr) := rfl
theorem EncodeLength.dcr (ra rb : Reg) : EncodeLength.Statement (.dcr ra rb) := rfl
theorem EncodeLength.nop : EncodeLength.Statement (.nop) := rfl
theorem EncodeLength.bpt : EncodeLength.Statement (.bpt) := rfl
theorem EncodeLength.bif (opex : Byte) : EncodeLength.Statement (.bif opex) := rfl

end Sys2Proof.Laws
end

