-- ==== Sys2Proof/Tests/Slice0.lean ====
section
/-! SUPPORT. Tests: the checks of WellFormed, the decoding of words written from the encodings of 30_encoding, single steps with
the expected results of 95_test_vectors, and for every statement that has hypotheses a state that meets them. -/

section

set_option Elab.async false

open Sys2Proof Sys2Proof.Machine

namespace Sys2Proof.Tests

/-! ## WellFormed -/

/-- A base register field holds R12 to R15 only: R11 is refused in every form that has one. -/
theorem test_base_register_refused :
    ([Instr.lb 11 0, .dlb 11 0, .stb 11 0, .dstb 11 0, .ab 11 0, .sbb 11 0, .mb 11 0, .db 11 0, .fab 11 0, .fsb 11 0, .fmb 11 0,
      .fdb 11 0, .orb 11 0, .andb 11 0, .cb 11 0, .fcb 11 0, .lbx 11 1, .dlbx 11 1, .stbx 11 1, .dstx 11 1, .abx 11 1,
      .sbbx 11 1, .mbx 11 1, .dbx 11 1, .fabx 11 1, .fsbx 11 1, .fmbx 11 1, .fdbx 11 1, .cbx 11 1, .fcbx 11 1, .andx 11 1,
      .orbx 11 1].all fun i => !i.wellFormed) = true := by decide

/-- A count field holds 1 to 16 only: 0 and 17 are refused. -/
theorem test_count_refused :
    ([0, 17].all fun n => [Instr.sll 1 n, .srl 1 n, .sra 1 n, .slc 1 n, .dsll 1 n, .dsrl 1 n, .dsra 1 n, .dslc 1 n, .lisp 1 n,
      .lisn 1 n, .aisp 1 n, .sisp 1 n, .misp 1 n, .misn 1 n, .disp 1 n, .disn 1 n, .cisp 1 n, .cisn 1 n, .incm n 0 0,
      .decm n 0 0].all fun i => !i.wellFormed) = true := by decide

theorem test_well_formed_accepted :
    ([Instr.lb 12 0xFF#8, .lbx 15 15, .sll 1 1, .sll 1 16, .incm 16 0 0].all fun i => i.wellFormed) = true := by decide

/-! ## Decoding -/

/-- The word (followed by BEEF) decodes to the instruction, by the decoder and through `decodeTableWord`. -/
def reads (w : Word) (i : Instr) : Bool :=
  decide (decode w 0xBEEF#16 = .ok i) &&
    decide (decodeTableWord (16 * i.words) (w.toNat + if i.words = 2 then 0xBEEF * 65536 else 0) = some i)

/-- Words of 40_io, each opcode with its operand fields in the places of its format (second word BEEF). -/
theorem test_decode_io :
    (reads 0x4896#16 (.xio 9 6 0xBEEF#16) && reads 0x4996#16 (.vio 9 6 0xBEEF#16)) = true := by decide +kernel

/-- Words of 41_bit, each opcode with its operand fields in the places of its format (second word BEEF). -/
theorem test_decode_bit :
    (reads 0x5096#16 (.sb 9 6 0xBEEF#16) && reads 0x5196#16 (.sbr 9 6) && reads 0x5296#16 (.sbi 9 6 0xBEEF#16) &&
    reads 0x5396#16 (.rb 9 6 0xBEEF#16) && reads 0x5496#16 (.rbr 9 6) && reads 0x5596#16 (.rbi 9 6 0xBEEF#16) &&
    reads 0x5696#16 (.tb 9 6 0xBEEF#16) && reads 0x5796#16 (.tbr 9 6) && reads 0x5896#16 (.tbi 9 6 0xBEEF#16) &&
    reads 0x5996#16 (.tsb 9 6 0xBEEF#16) && reads 0x5A96#16 (.svbr 9 6) && reads 0x5C96#16 (.rvbr 9 6) &&
    reads 0x5E96#16 (.tvbr 9 6)) = true := by decide +kernel

/-- Words of 42_shift, each opcode with its operand fields in the places of its format (second word BEEF). -/
theorem test_decode_shift :
    (reads 0x6086#16 (.sll 6 9) && reads 0x6186#16 (.srl 6 9) && reads 0x6286#16 (.sra 6 9) &&
    reads 0x6386#16 (.slc 6 9) && reads 0x6586#16 (.dsll 6 9) && reads 0x6686#16 (.dsrl 6 9) &&
    reads 0x6786#16 (.dsra 6 9) && reads 0x6886#16 (.dslc 6 9) && reads 0x6A96#16 (.slr 9 6) &&
    reads 0x6B96#16 (.sar 9 6) && reads 0x6C96#16 (.scr 9 6) && reads 0x6D96#16 (.dslr 9 6) &&
    reads 0x6E96#16 (.dsar 9 6) && reads 0x6F96#16 (.dscr 9 6)) = true := by decide +kernel

/-- Words of 43_jump_branch, each opcode with its operand fields in the places of its format (second word BEEF). -/
theorem test_decode_jump :
    (reads 0x7096#16 (.jc 0x9#4 6 0xBEEF#16) && reads 0x7196#16 (.jci 0x9#4 6 0xBEEF#16) &&
    reads 0x7296#16 (.js 9 6 0xBEEF#16) && reads 0x7396#16 (.soj 9 6 0xBEEF#16) && reads 0x7485#16 (.br 0x85#8) &&
    reads 0x7585#16 (.bez 0x85#8) && reads 0x7685#16 (.blt 0x85#8) && reads 0x7885#16 (.ble 0x85#8) &&
    reads 0x7985#16 (.bgt 0x85#8) && reads 0x7A85#16 (.bnz 0x85#8) && reads 0x7B85#16 (.bge 0x85#8) &&
    reads 0x7706#16 (.bex 6) && reads 0x7C06#16 (.lsti 6 0xBEEF#16) && reads 0x7D06#16 (.lst 6 0xBEEF#16) &&
    reads 0x7E96#16 (.sjs 9 6 0xBEEF#16) && reads 0x7F90#16 (.urs 9)) = true := by decide +kernel

/-- Words of 44_load, each opcode with its operand fields in the places of its format (second word BEEF). -/
theorem test_decode_load :
    (reads 0x8096#16 (.l 9 6 0xBEEF#16) && reads 0x8196#16 (.lr 9 6) && reads 0x8295#16 (.lisp 9 6) &&
    reads 0x8395#16 (.lisn 9 6) && reads 0x8496#16 (.li 9 6 0xBEEF#16) && reads 0x8596#16 (.lim 9 6 0xBEEF#16) &&
    reads 0x8696#16 (.dl 9 6 0xBEEF#16) && reads 0x8796#16 (.dlr 9 6) && reads 0x8896#16 (.dli 9 6 0xBEEF#16) &&
    reads 0x8996#16 (.lm 9 6 0xBEEF#16) && reads 0x8A96#16 (.efl 9 6 0xBEEF#16) &&
    reads 0x8B96#16 (.lub 9 6 0xBEEF#16) && reads 0x8C96#16 (.llb 9 6 0xBEEF#16) &&
    reads 0x8D96#16 (.lubi 9 6 0xBEEF#16) && reads 0x8E96#16 (.llbi 9 6 0xBEEF#16) && reads 0x8F96#16 (.popm 9 6) &&
    reads 0x01C3#16 (.lb 13 0xC3#8) && reads 0x05C3#16 (.dlb 13 0xC3#8) && reads 0x4206#16 (.lbx 14 6) &&
    reads 0x4216#16 (.dlbx 14 6)) = true := by decide +kernel

/-- Words of 45_store, each opcode with its operand fields in the places of its format (second word BEEF). -/
theorem test_decode_store :
    (reads 0x9096#16 (.st 9 6 0xBEEF#16) && reads 0x9196#16 (.stc 9 6 0xBEEF#16) &&
    reads 0x9296#16 (.stci 9 6 0xBEEF#16) && reads 0x9396#16 (.mov 9 6) && reads 0x9496#16 (.sti 9 6 0xBEEF#16) &&
    reads 0x9696#16 (.dst 9 6 0xBEEF#16) && reads 0x9796#16 (.srm 9 6 0xBEEF#16) &&
    reads 0x9896#16 (.dsti 9 6 0xBEEF#16) && reads 0x9996#16 (.stm 9 6 0xBEEF#16) &&
    reads 0x9A96#16 (.efst 9 6 0xBEEF#16) && reads 0x9B96#16 (.stub 9 6 0xBEEF#16) &&
    reads 0x9C96#16 (.stlb 9 6 0xBEEF#16) && reads 0x9D96#16 (.subi 9 6 0xBEEF#16) &&
    reads 0x9E96#16 (.slbi 9 6 0xBEEF#16) && reads 0x9F96#16 (.pshm 9 6) && reads 0x09C3#16 (.stb 13 0xC3#8) &&
    reads 0x0DC3#16 (.dstb 13 0xC3#8) && reads 0x4226#16 (.stbx 14 6) && reads 0x4236#16 (.dstx 14 6)) = true := by decide +kernel

/-- Words of 46_int_addsub, each opcode with its operand fields in the places of its format (second word BEEF). -/
theorem test_decode_add_subtract :
    (reads 0xA096#16 (.a 9 6 0xBEEF#16) && reads 0xA196#16 (.ar 9 6) && reads 0xA295#16 (.aisp 9 6) &&
    reads 0xA386#16 (.incm 9 6 0xBEEF#16) && reads 0xA496#16 (.abs 9 6) && reads 0xA596#16 (.dabs 9 6) &&
    reads 0xA696#16 (.da 9 6 0xBEEF#16) && reads 0xA796#16 (.dar 9 6) && reads 0x11C3#16 (.ab 13 0xC3#8) &&
    reads 0x4246#16 (.abx 14 6) && reads 0x4A91#16 (.aim 9 0xBEEF#16) && reads 0xB096#16 (.s 9 6 0xBEEF#16) &&
    reads 0xB196#16 (.sr 9 6) && reads 0xB295#16 (.sisp 9 6) && reads 0xB386#16 (.decm 9 6 0xBEEF#16) &&
    reads 0xB496#16 (.neg 9 6) && reads 0xB596#16 (.dneg 9 6) && reads 0xB696#16 (.ds 9 6 0xBEEF#16) &&
    reads 0xB796#16 (.dsr 9 6) && reads 0x15C3#16 (.sbb 13 0xC3#8) && reads 0x4256#16 (.sbbx 14 6) &&
    reads 0x4A92#16 (.sim 9 0xBEEF#16)) = true := by decide +kernel

/-- Words of 47_int_muldiv, each opcode with its operand fields in the places of its format (second word BEEF). -/
theorem test_decode_multiply_divide :
    (reads 0xC096#16 (.ms 9 6 0xBEEF#16) && reads 0xC196#16 (.msr 9 6) && reads 0xC295#16 (.misp 9 6) &&
    reads 0xC395#16 (.misn 9 6) && reads 0xC496#16 (.m 9 6 0xBEEF#16) && reads 0xC596#16 (.mr 9 6) &&
    reads 0xC696#16 (.dm 9 6 0xBEEF#16) && reads 0xC796#16 (.dmr 9 6) && reads 0x19C3#16 (.mb 13 0xC3#8) &&
    reads 0x4266#16 (.mbx 14 6) && reads 0x4A93#16 (.mim 9 0xBEEF#16) && reads 0x4A94#16 (.msim 9 0xBEEF#16) &&
    reads 0xD096#16 (.dv 9 6 0xBEEF#16) && reads 0xD196#16 (.dvr 9 6) && reads 0xD295#16 (.disp 9 6) &&
    reads 0xD395#16 (.disn 9 6) && reads 0xD496#16 (.d 9 6 0xBEEF#16) && reads 0xD596#16 (.dr 9 6) &&
    reads 0xD696#16 (.dd 9 6 0xBEEF#16) && reads 0xD796#16 (.ddr 9 6) && reads 0x1DC3#16 (.db 13 0xC3#8) &&
    reads 0x4276#16 (.dbx 14 6) && reads 0x4A95#16 (.dim 9 0xBEEF#16) && reads 0x4A96#16 (.dvim 9 0xBEEF#16)) = true := by decide +kernel

/-- Words of 48_float, each opcode with its operand fields in the places of its format (second word BEEF). -/
theorem test_decode_float :
    (reads 0xA996#16 (.far 9 6) && reads 0x21C3#16 (.fab 13 0xC3#8) && reads 0x4286#16 (.fabx 14 6) &&
    reads 0xA896#16 (.fa 9 6 0xBEEF#16) && reads 0xAB96#16 (.efar 9 6) && reads 0xAA96#16 (.efa 9 6 0xBEEF#16) &&
    reads 0xAC96#16 (.fabs 9 6) && reads 0xB996#16 (.fsr 9 6) && reads 0x25C3#16 (.fsb 13 0xC3#8) &&
    reads 0x4296#16 (.fsbx 14 6) && reads 0xB896#16 (.fs 9 6 0xBEEF#16) && reads 0xBB96#16 (.efsr 9 6) &&
    reads 0xBA96#16 (.efs 9 6 0xBEEF#16) && reads 0xBC96#16 (.fneg 9 6) && reads 0xC996#16 (.fmr 9 6) &&
    reads 0x29C3#16 (.fmb 13 0xC3#8) && reads 0x42A6#16 (.fmbx 14 6) && reads 0xC896#16 (.fm 9 6 0xBEEF#16) &&
    reads 0xCB96#16 (.efmr 9 6) && reads 0xCA96#16 (.efm 9 6 0xBEEF#16) && reads 0xD996#16 (.fdr 9 6) &&
    reads 0x2DC3#16 (.fdb 13 0xC3#8) && reads 0x42B6#16 (.fdbx 14 6) && reads 0xD896#16 (.fd 9 6 0xBEEF#16) &&
    reads 0xDB96#16 (.efdr 9 6) && reads 0xDA96#16 (.efd 9 6 0xBEEF#16) && reads 0xE896#16 (.fix 9 6) &&
    reads 0xE996#16 (.flt 9 6) && reads 0xEA96#16 (.efix 9 6) && reads 0xEB96#16 (.eflt 9 6) &&
    reads 0xF996#16 (.fcr 9 6) && reads 0x3DC3#16 (.fcb 13 0xC3#8) && reads 0x42D6#16 (.fcbx 14 6) &&
    reads 0xF896#16 (.fc 9 6 0xBEEF#16) && reads 0xFB96#16 (.efcr 9 6) && reads 0xFA96#16 (.efc 9 6 0xBEEF#16)) = true := by decide +kernel

/-- Words of 49_logic_compare_misc, each opcode with its operand fields in the places of its format (second word BEEF). -/
theorem test_decode_logic_compare :
    (reads 0xE096#16 (.or 9 6 0xBEEF#16) && reads 0xE196#16 (.orr 9 6) && reads 0xE296#16 (.and 9 6 0xBEEF#16) &&
    reads 0xE396#16 (.andr 9 6) && reads 0xE496#16 (.xor 9 6 0xBEEF#16) && reads 0xE596#16 (.xorr 9 6) &&
    reads 0xE696#16 (.n 9 6 0xBEEF#16) && reads 0xE796#16 (.nr 9 6) && reads 0xEC90#16 (.xbr 9) &&
    reads 0xED96#16 (.xwr 9 6) && reads 0x31C3#16 (.orb 13 0xC3#8) && reads 0x35C3#16 (.andb 13 0xC3#8) &&
    reads 0x39C3#16 (.cb 13 0xC3#8) && reads 0x42C6#16 (.cbx 14 6) && reads 0x42E6#16 (.andx 14 6) &&
    reads 0x42F6#16 (.orbx 14 6) && reads 0x4A97#16 (.andm 9 0xBEEF#16) && reads 0x4A98#16 (.orim 9 0xBEEF#16) &&
    reads 0x4A99#16 (.xorm 9 0xBEEF#16) && reads 0x4A9A#16 (.cim 9 0xBEEF#16) &&
    reads 0x4A9B#16 (.nim 9 0xBEEF#16) && reads 0xF096#16 (.c 9 6 0xBEEF#16) && reads 0xF196#16 (.cr 9 6) &&
    reads 0xF295#16 (.cisp 9 6) && reads 0xF395#16 (.cisn 9 6) && reads 0xF496#16 (.cbl 9 6 0xBEEF#16) &&
    reads 0xF696#16 (.dc 9 6 0xBEEF#16) && reads 0xF796#16 (.dcr 9 6) && reads 0xFF00#16 .nop &&
    reads 0xFFFF#16 .bpt && reads 0x4F85#16 (.bif 0x85#8)) = true := by decide +kernel

/-! ## One step -/

/-- The default machine with words in memory. -/
def image (l : List (Nat × Nat)) : Memory :=
  l.foldl (fun m c => Memory.writeWord m (BitVec.ofNat 20 c.1) (BitVec.ofNat 16 c.2)) []

/-- A state with some registers and memory words, the others zero. -/
def small (sw : Nat) (regs mem : List (Nat × Nat)) : State :=
  { regs.foldl (fun s c => s.setReg (Fin.ofNat 16 c.1) (BitVec.ofNat 16 c.2)) State.reset with
    sw := BitVec.ofNat 16 sw, ic := 0x0100#16, mem := image mem }

/-- One step from a state with the instruction `enc` at 0x0100 leaves IC, SW, PI, FT, the registers and the words listed. -/
def ends (enc : List Nat) (sw : Nat) (regs mem : List (Nat × Nat)) (ic' sw' pi' ft' : Nat) (regs' mem' : List (Nat × Nat)) :
    Bool :=
  match step (small sw regs (enc.zipIdx.map (fun c => (0x0100 + c.2, c.1)) ++ mem)) with
  | .next t =>
    t.ic.toNat == ic' && t.sw.toNat == sw' && t.pi.toNat == pi' && t.ft.toNat == ft' &&
      ((List.range 16).all fun r => (t.reg (Fin.ofNat 16 r)).toNat == (regs'.lookup r).getD 0) &&
      mem'.all fun c => (Memory.readWord t.mem (BitVec.ofNat 20 c.1)).toNat == c.2
  | _ => false

/-! Vectors of 95_test_vectors (SW, registers, memory before; IC, SW, PI, FT, registers, memory after). -/


theorem test_bit_registers :
    (ends [0x51F1] 0x0000 [(1, 0x0000)] [] 0x0101 0x0000 0x0000 0x0000 [(1, 0x0001)] [] &&
      ends [0x5101] 0x0000 [(1, 0x0001)] [] 0x0101 0x0000 0x0000 0x0000 [(1, 0x8001)] [] &&
      ends [0x5402] 0x0000 [(2, 0xFFFF)] [] 0x0101 0x0000 0x0000 0x0000 [(2, 0x7FFF)] [] &&
      ends [0x5A11] 0x0000 [(1, 0x0003)] [] 0x0101 0x0000 0x0000 0x0000 [(1, 0x1003)] [] &&
      ends [0x5A12] 0x0000 [(1, 0x00F3), (2, 0x0000)] [] 0x0101 0x0000 0x0000 0x0000 [(1, 0x00F3), (2, 0x1000)] [] &&
      ends [0x5C12] 0x0000 [(1, 0x000F), (2, 0xFFFF)] [] 0x0101 0x0000 0x0000 0x0000 [(1, 0x000F), (2, 0xFFFE)] []) = true := by decide +kernel

theorem test_bit_memory :
    (ends [0x5003, 0x2000] 0x0000 [(3, 0x0002)] [(0x2002, 0x0001)] 0x0102 0x0000 0x0000 0x0000 [(3, 0x0002)] [(0x2002, 0x8001)] &&
      ends [0x50F0, 0x2000] 0x0000 [] [(0x2000, 0x0000)] 0x0102 0x0000 0x0000 0x0000 [] [(0x2000, 0x0001)] &&
      ends [0x5230, 0x0300] 0x0000 [] [(0x0300, 0x3000), (0x3000, 0x0000)] 0x0102 0x0000 0x0000 0x0000 [] [(0x0300, 0x3000), (0x3000, 0x1000)] &&
      ends [0x53F0, 0x2000] 0x0000 [] [(0x2000, 0xFFFF)] 0x0102 0x0000 0x0000 0x0000 [] [(0x2000, 0xFFFE)] &&
      ends [0x5504, 0x0300] 0x0000 [(4, 0x0002)] [(0x0302, 0x4000), (0x4000, 0x8001)] 0x0102 0x0000 0x0000 0x0000 [(4, 0x0002)] [(0x0302, 0x4000), (0x4000, 0x0001)]) = true := by decide +kernel

theorem test_bit_tests :
    (ends [0x5713] 0x0000 [(3, 0x4000)] [] 0x0101 0x4000 0x0000 0x0000 [(3, 0x4000)] [] &&
      ends [0x5703] 0x0000 [(3, 0x8000)] [] 0x0101 0x1000 0x0000 0x0000 [(3, 0x8000)] [] &&
      ends [0x5E12] 0x0000 [(1, 0xFFF8), (2, 0x0080)] [] 0x0101 0x4000 0x0000 0x0000 [(1, 0xFFF8), (2, 0x0080)] [] &&
      ends [0x5E12] 0x0000 [(1, 0x0000), (2, 0x8000)] [] 0x0101 0x1000 0x0000 0x0000 [(1, 0x0000), (2, 0x8000)] [] &&
      ends [0x5610, 0x2000] 0x0000 [] [(0x2000, 0x4000)] 0x0102 0x4000 0x0000 0x0000 [] [(0x2000, 0x4000)] &&
      ends [0x58F0, 0x0300] 0x0000 [] [(0x0300, 0x3000), (0x3000, 0xFFFE)] 0x0102 0x2000 0x0000 0x0000 [] [(0x0300, 0x3000), (0x3000, 0xFFFE)] &&
      ends [0x5900, 0x2000] 0x0000 [] [(0x2000, 0x8000)] 0x0102 0x1000 0x0000 0x0000 [] [(0x2000, 0x8000)] &&
      ends [0x5900, 0x2000] 0x0000 [] [(0x2000, 0x0000)] 0x0102 0x2000 0x0000 0x0000 [] [(0x2000, 0x8000)]) = true := by decide +kernel

theorem test_shift_word_by_constant :
    (ends [0x60F1] 0x0000 [(1, 0xFFFF)] [] 0x0101 0x2000 0x0000 0x0000 [(1, 0x0000)] [] &&
      ends [0x6031] 0x0000 [(1, 0x1234)] [] 0x0101 0x4000 0x0000 0x0000 [(1, 0x2340)] [] &&
      ends [0x6131] 0x0000 [(1, 0x8234)] [] 0x0101 0x4000 0x0000 0x0000 [(1, 0x0823)] [] &&
      ends [0x62F1] 0x0000 [(1, 0x8000)] [] 0x0101 0x1000 0x0000 0x0000 [(1, 0xFFFF)] [] &&
      ends [0x6231] 0x0000 [(1, 0x8234)] [] 0x0101 0x1000 0x0000 0x0000 [(1, 0xF823)] [] &&
      ends [0x63F1] 0x0000 [(1, 0x8234)] [] 0x0101 0x1000 0x0000 0x0000 [(1, 0x8234)] [] &&
      ends [0x6331] 0x0000 [(1, 0x8234)] [] 0x0101 0x4000 0x0000 0x0000 [(1, 0x2348)] []) = true := by decide +kernel

theorem test_shift_double_by_constant :
    (ends [0x6572] 0x0000 [(2, 0x1234), (3, 0x5678)] [] 0x0101 0x4000 0x0000 0x0000 [(2, 0x3456), (3, 0x7800)] [] &&
      ends [0x66F2] 0x0000 [(2, 0x1234), (3, 0x5678)] [] 0x0101 0x4000 0x0000 0x0000 [(2, 0x0000), (3, 0x1234)] [] &&
      ends [0x6732] 0x0000 [(2, 0x8000), (3, 0x0010)] [] 0x0101 0x1000 0x0000 0x0000 [(2, 0xF800), (3, 0x0001)] [] &&
      ends [0x68F2] 0x0000 [(2, 0x1234), (3, 0x5678)] [] 0x0101 0x4000 0x0000 0x0000 [(2, 0x5678), (3, 0x1234)] [] &&
      ends [0x683F] 0x0000 [(0, 0x0001), (15, 0x8000)] [] 0x0101 0x4000 0x0000 0x0000 [(0, 0x0018), (15, 0x0000)] []) = true := by decide +kernel

theorem test_shift_word_by_register :
    (ends [0x6A12] 0x0000 [(1, 0x00FF), (2, 0xFFFC)] [] 0x0101 0x4000 0x0000 0x0000 [(1, 0x000F), (2, 0xFFFC)] [] &&
      ends [0x6A12] 0x1000 [(1, 0x00FF), (2, 0x0011)] [] 0x0101 0x1000 0x0800 0x0000 [(1, 0x00FF), (2, 0x0011)] [] &&
      ends [0x6B12] 0x0000 [(1, 0x4000), (2, 0x0002)] [] 0x0101 0x2000 0x0800 0x0000 [(1, 0x0000), (2, 0x0002)] [] &&
      ends [0x6B12] 0x0000 [(1, 0x4000), (2, 0x0001)] [] 0x0101 0x1000 0x0800 0x0000 [(1, 0x8000), (2, 0x0001)] [] &&
      ends [0x6C12] 0x0000 [(1, 0x0001), (2, 0xFFFF)] [] 0x0101 0x1000 0x0000 0x0000 [(1, 0x8000), (2, 0xFFFF)] []) = true := by decide +kernel

theorem test_shift_double_by_register :
    (ends [0x6D25] 0x0000 [(2, 0x0000), (3, 0x0001), (5, 0x0020)] [] 0x0101 0x2000 0x0000 0x0000 [(2, 0x0000), (3, 0x0000), (5, 0x0020)] [] &&
      ends [0x6D25] 0x0000 [(2, 0x0000), (3, 0x0001), (5, 0x0021)] [] 0x0101 0x0000 0x0800 0x0000 [(2, 0x0000), (3, 0x0001), (5, 0x0021)] [] &&
      ends [0x6E25] 0x0000 [(2, 0xFFFF), (3, 0xFFF0), (5, 0xFFFC)] [] 0x0101 0x1000 0x0000 0x0000 [(2, 0xFFFF), (3, 0xFFFF), (5, 0xFFFC)] [] &&
      ends [0x6E25] 0x0000 [(2, 0x4000), (3, 0x0000), (5, 0x0001)] [] 0x0101 0x1000 0x0800 0x0000 [(2, 0x8000), (3, 0x0000), (5, 0x0001)] [] &&
      ends [0x6F25] 0x0000 [(2, 0x8000), (3, 0x0001), (5, 0x0001)] [] 0x0101 0x4000 0x0000 0x0000 [(2, 0x0000), (3, 0x0003), (5, 0x0001)] []) = true := by decide +kernel

theorem test_conditional_jumps :
    (ends [0x7020, 0x1000] 0x2000 [] [] 0x1000 0x2000 0x0000 0x0000 [] [] &&
      ends [0x7075, 0x0000] 0x0000 [(5, 0x0444)] [] 0x0444 0x0000 0x0000 0x0000 [(5, 0x0444)] [] &&
      ends [0x71F0, 0x0300] 0x0000 [] [(0x0300, 0x2000)] 0x2000 0x0000 0x0000 0x0000 [] [(0x0300, 0x2000)]) = true := by decide +kernel

theorem test_branches :
    (ends [0x7400] 0x0000 [] [] 0x0100 0x0000 0x0000 0x0000 [] [] &&
      ends [0x74FE] 0x0000 [] [] 0x00FE 0x0000 0x0000 0x0000 [] [] &&
      ends [0x7505] 0x2000 [] [] 0x0105 0x2000 0x0000 0x0000 [] [] &&
      ends [0x7504] 0x8000 [] [] 0x0101 0x8000 0x0000 0x0000 [] [] &&
      ends [0x76FF] 0x9000 [] [] 0x00FF 0x9000 0x0000 0x0000 [] [] &&
      ends [0x7802] 0x1000 [] [] 0x0102 0x1000 0x0000 0x0000 [] [] &&
      ends [0x7902] 0x2000 [] [] 0x0101 0x2000 0x0000 0x0000 [] [] &&
      ends [0x7902] 0x4000 [] [] 0x0102 0x4000 0x0000 0x0000 [] [] &&
      ends [0x7AFD] 0x4000 [] [] 0x00FD 0x4000 0x0000 0x0000 [] [] &&
      ends [0x7A04] 0x5000 [] [] 0x0101 0x5000 0x0000 0x0000 [] [] &&
      ends [0x7B04] 0xA000 [] [] 0x0104 0xA000 0x0000 0x0000 [] []) = true := by decide +kernel

theorem test_calls :
    (ends [0x72E0, 0x0400] 0x0000 [] [] 0x0400 0x0000 0x0000 0x0000 [(14, 0x0102)] [] &&
      ends [0x7255, 0x0400] 0x0000 [(5, 0x0010)] [] 0x0410 0x0000 0x0000 0x0000 [(5, 0x0102)] [] &&
      ends [0x7330, 0x0300] 0x0000 [(3, 0x0001)] [] 0x0102 0x2000 0x0000 0x0000 [(3, 0x0000)] [] &&
      ends [0x7330, 0x0300] 0x0000 [(3, 0x0002)] [] 0x0300 0x4000 0x0000 0x0000 [(3, 0x0001)] [] &&
      ends [0x7EF0, 0x0400] 0x0000 [(15, 0x8000)] [] 0x0400 0x0000 0x0000 0x0000 [(15, 0x7FFF)] [(0x7FFF, 0x0102)] &&
      ends [0x7FF0] 0x0000 [(15, 0x7FFF)] [(0x7FFF, 0x0202)] 0x0202 0x0000 0x0000 0x0000 [(15, 0x8000)] [(0x7FFF, 0x0202)]) = true := by decide +kernel

theorem test_load_status :
    (ends [0x7D00, 0x0500] 0x0000 [] [(0x0500, 0xFFFF), (0x0501, 0x4030), (0x0502, 0x0223)] 0x0223 0x4030 0x0000 0x0000 [] [(0x0500, 0xFFFF), (0x0501, 0x4030), (0x0502, 0x0223)] &&
      ends [0x7D00, 0x0500] 0x0030 [] [(0x0500, 0xFFFF), (0x0501, 0x4030), (0x0502, 0x0223)] 0x0102 0x0030 0x4000 0x0020 [] [(0x0500, 0xFFFF), (0x0501, 0x4030), (0x0502, 0x0223)] &&
      ends [0x7C00, 0x002A] 0x0000 [] [(0x002A, 0x0500), (0x0500, 0xFFFF), (0x0501, 0x4030), (0x0502, 0x0223)] 0x0223 0x4030 0x0000 0x0000 [] [(0x002A, 0x0500), (0x0500, 0xFFFF), (0x0501, 0x4030), (0x0502, 0x0223)]) = true := by decide +kernel

theorem test_load_word :
    (ends [0x8112] 0x0000 [(2, 0x8000)] [] 0x0101 0x1000 0x0000 0x0000 [(1, 0x8000), (2, 0x8000)] [] &&
      ends [0x0110] 0x0000 [(13, 0x4000)] [(0x4010, 0x0007)] 0x0101 0x4000 0x0000 0x0000 [(2, 0x0007), (13, 0x4000)] [(0x4010, 0x0007)] &&
      ends [0x4005] 0x0000 [(2, 0x0009), (5, 0x0003), (12, 0x4000)] [(0x4003, 0x0000)] 0x0101 0x2000 0x0000 0x0000 [(2, 0x0000), (5, 0x0003), (12, 0x4000)] [(0x4003, 0x0000)] &&
      ends [0x824F] 0x0000 [] [] 0x0101 0x4000 0x0000 0x0000 [(4, 0x0010)] [] &&
      ends [0x834F] 0x0000 [] [] 0x0101 0x1000 0x0000 0x0000 [(4, 0xFFF0)] [] &&
      ends [0x8340] 0x0000 [] [] 0x0101 0x1000 0x0000 0x0000 [(4, 0xFFFF)] [] &&
      ends [0x8033, 0x1000] 0x0000 [(3, 0x0002)] [(0x1002, 0xFFFE)] 0x0102 0x1000 0x0000 0x0000 [(3, 0xFFFE)] [(0x1002, 0xFFFE)] &&
      ends [0x8512, 0xFFFF] 0x0000 [(2, 0x0001)] [] 0x0102 0x2000 0x0000 0x0000 [(2, 0x0001)] [] &&
      ends [0x8510, 0x1234] 0x0000 [] [] 0x0102 0x4000 0x0000 0x0000 [(1, 0x1234)] [] &&
      ends [0x8410, 0x0300] 0x0000 [] [(0x0300, 0x2000), (0x2000, 0x0005)] 0x0102 0x4000 0x0000 0x0000 [(1, 0x0005)] [(0x0300, 0x2000), (0x2000, 0x0005)]) = true := by decide +kernel

theorem test_load_double :
    (ends [0x8723] 0x0000 [(3, 0x0001), (4, 0x0002)] [] 0x0101 0x4000 0x0000 0x0000 [(2, 0x0001), (3, 0x0002), (4, 0x0002)] [] &&
      ends [0x0402] 0x0000 [(12, 0x4000)] [(0x4002, 0x8000), (0x4003, 0x0001)] 0x0101 0x1000 0x0000 0x0000 [(0, 0x8000), (1, 0x0001), (12, 0x4000)] [(0x4002, 0x8000), (0x4003, 0x0001)] &&
      ends [0x4114] 0x0000 [(4, 0x0010), (13, 0x4000)] [(0x4010, 0x0000), (0x4011, 0x0000)] 0x0101 0x2000 0x0000 0x0000 [(4, 0x0010), (13, 0x4000)] [(0x4010, 0x0000), (0x4011, 0x0000)] &&
      ends [0x86F0, 0xFFFF] 0x0000 [] [(0x0000, 0x2222), (0xFFFF, 0x1111)] 0x0102 0x4000 0x0000 0x0000 [(0, 0x2222), (15, 0x1111)] [(0x0000, 0x2222), (0xFFFF, 0x1111)] &&
      ends [0x8840, 0x0300] 0x0000 [] [(0x0300, 0x2000), (0x2000, 0x0000), (0x2001, 0x0001)] 0x0102 0x4000 0x0000 0x0000 [(5, 0x0001)] [(0x0300, 0x2000), (0x2000, 0x0000), (0x2001, 0x0001)]) = true := by decide +kernel

theorem test_load_multiple :
    (ends [0x8920, 0x1000] 0x1000 [] [(0x1000, 0x0001), (0x1001, 0x0002), (0x1002, 0x0003)] 0x0102 0x1000 0x0000 0x0000 [(0, 0x0001), (1, 0x0002), (2, 0x0003)] [(0x1000, 0x0001), (0x1001, 0x0002), (0x1002, 0x0003)] &&
      ends [0x8F13] 0x0000 [(15, 0x7FFD)] [(0x7FFD, 0x0011), (0x7FFE, 0x0022), (0x7FFF, 0x0033)] 0x0101 0x0000 0x0000 0x0000 [(1, 0x0011), (2, 0x0022), (3, 0x0033), (15, 0x8000)] [(0x7FFD, 0x0011), (0x7FFE, 0x0022), (0x7FFF, 0x0033)] &&
      ends [0x8FE0] 0x0000 [(15, 0x7000)] [(0x7000, 0xAAAA), (0x7001, 0xBBBB), (0x7002, 0xCCCC)] 0x0101 0x0000 0x0000 0x0000 [(0, 0xCCCC), (14, 0xAAAA), (15, 0x7003)] [(0x7000, 0xAAAA), (0x7001, 0xBBBB), (0x7002, 0xCCCC)] &&
      ends [0x8A40, 0x3000] 0x0000 [] [(0x3000, 0x4000), (0x3001, 0x0001), (0x3002, 0x0000)] 0x0102 0x4000 0x0000 0x0000 [(4, 0x4000), (5, 0x0001)] [(0x3000, 0x4000), (0x3001, 0x0001), (0x3002, 0x0000)] &&
      ends [0x8A40, 0x3000] 0x0000 [] [(0x3000, 0x0000), (0x3001, 0x0000), (0x3002, 0x0001)] 0x0102 0x4000 0x0000 0x0000 [(6, 0x0001)] [(0x3000, 0x0000), (0x3001, 0x0000), (0x3002, 0x0001)]) = true := by decide +kernel

theorem test_load_byte :
    (ends [0x8B10, 0x2000] 0x0000 [(1, 0xFF00)] [(0x2000, 0x1234)] 0x0102 0x1000 0x0000 0x0000 [(1, 0xFF12)] [(0x2000, 0x1234)] &&
      ends [0x8D10, 0x0300] 0x0000 [(1, 0x0000)] [(0x0300, 0x2000), (0x2000, 0x1234)] 0x0102 0x4000 0x0000 0x0000 [(1, 0x0012)] [(0x0300, 0x2000), (0x2000, 0x1234)] &&
      ends [0x8C10, 0x2000] 0x0000 [(1, 0x0000)] [(0x2000, 0x1234)] 0x0102 0x4000 0x0000 0x0000 [(1, 0x0034)] [(0x2000, 0x1234)] &&
      ends [0x8E12, 0x0300] 0x0000 [(1, 0x8000), (2, 0x0001)] [(0x0301, 0x2000), (0x2000, 0x12FF)] 0x0102 0x1000 0x0000 0x0000 [(1, 0x80FF), (2, 0x0001)] [(0x0301, 0x2000), (0x2000, 0x12FF)]) = true := by decide +kernel

theorem test_store_word :
    (ends [0x0801] 0x0000 [(2, 0xBEEF), (12, 0x4000)] [] 0x0101 0x0000 0x0000 0x0000 [(2, 0xBEEF), (12, 0x4000)] [(0x4001, 0xBEEF)] &&
      ends [0x4023] 0x0000 [(2, 0xBEEF), (3, 0x0005), (12, 0x4000)] [] 0x0101 0x0000 0x0000 0x0000 [(2, 0xBEEF), (3, 0x0005), (12, 0x4000)] [(0x4005, 0xBEEF)] &&
      ends [0x9010, 0x2000] 0x2000 [(1, 0x1234)] [] 0x0102 0x2000 0x0000 0x0000 [(1, 0x1234)] [(0x2000, 0x1234)] &&
      ends [0x9410, 0x0300] 0x0000 [(1, 0x1234)] [(0x0300, 0x2000)] 0x0102 0x0000 0x0000 0x0000 [(1, 0x1234)] [(0x0300, 0x2000), (0x2000, 0x1234)] &&
      ends [0x9150, 0x2000] 0x0000 [] [(0x2000, 0xFFFF)] 0x0102 0x0000 0x0000 0x0000 [] [(0x2000, 0x0005)] &&
      ends [0x92F0, 0x0300] 0x0000 [] [(0x0300, 0x2000)] 0x0102 0x0000 0x0000 0x0000 [] [(0x0300, 0x2000), (0x2000, 0x000F)]) = true := by decide +kernel

theorem test_store_double :
    (ends [0x0D04] 0x0000 [(0, 0x1234), (1, 0x5678), (13, 0x4000)] [] 0x0101 0x0000 0x0000 0x0000 [(0, 0x1234), (1, 0x5678), (13, 0x4000)] [(0x4004, 0x1234), (0x4005, 0x5678)] &&
      ends [0x4037] 0x0000 [(0, 0x1234), (1, 0x5678), (7, 0x0020), (12, 0x4000)] [] 0x0101 0x0000 0x0000 0x0000 [(0, 0x1234), (1, 0x5678), (7, 0x0020), (12, 0x4000)] [(0x4020, 0x1234), (0x4021, 0x5678)] &&
      ends [0x9640, 0x2000] 0x0000 [(4, 0x1234), (5, 0x5678)] [] 0x0102 0x0000 0x0000 0x0000 [(4, 0x1234), (5, 0x5678)] [(0x2000, 0x1234), (0x2001, 0x5678)] &&
      ends [0x9840, 0x0300] 0x0000 [(4, 0x1234), (5, 0x5678)] [(0x0300, 0x2000)] 0x0102 0x0000 0x0000 0x0000 [(4, 0x1234), (5, 0x5678)] [(0x0300, 0x2000), (0x2000, 0x1234), (0x2001, 0x5678)]) = true := by decide +kernel

theorem test_store_several :
    (ends [0x9920, 0x4000] 0x0000 [(0, 0x0001), (1, 0x0002), (2, 0x0003)] [] 0x0102 0x0000 0x0000 0x0000 [(0, 0x0001), (1, 0x0002), (2, 0x0003)] [(0x4000, 0x0001), (0x4001, 0x0002), (0x4002, 0x0003)] &&
      ends [0x9AE0, 0x3000] 0x0000 [(0, 0xCCCC), (14, 0xAAAA), (15, 0xBBBB)] [] 0x0102 0x0000 0x0000 0x0000 [(0, 0xCCCC), (14, 0xAAAA), (15, 0xBBBB)] [(0x3000, 0xAAAA), (0x3001, 0xBBBB), (0x3002, 0xCCCC)] &&
      ends [0x9F35] 0x0000 [(3, 0x0033), (4, 0x0044), (5, 0x0055), (15, 0x8000)] [] 0x0101 0x0000 0x0000 0x0000 [(3, 0x0033), (4, 0x0044), (5, 0x0055), (15, 0x7FFD)] [(0x7FFD, 0x0033), (0x7FFE, 0x0044), (0x7FFF, 0x0055)] &&
      ends [0x9FE2] 0x0000 [(0, 0x0010), (1, 0x0011), (2, 0x0012), (14, 0x00EE), (15, 0x8000)] [] 0x0101 0x0000 0x0000 0x0000 [(0, 0x0010), (1, 0x0011), (2, 0x0012), (14, 0x00EE), (15, 0x7FFB)] [(0x7FFB, 0x00EE), (0x7FFC, 0x7FFC), (0x7FFD, 0x0010), (0x7FFE, 0x0011), (0x7FFF, 0x0012)]) = true := by decide +kernel

theorem test_store_part :
    (ends [0x9720, 0x2000] 0x0000 [(2, 0xABCD), (3, 0x00FF)] [(0x2000, 0x1234)] 0x0102 0x0000 0x0000 0x0000 [(2, 0xABCD), (3, 0x00FF)] [(0x2000, 0x12CD)] &&
      ends [0x9B10, 0x2000] 0x0000 [(1, 0xAB12)] [(0x2000, 0x3456)] 0x0102 0x0000 0x0000 0x0000 [(1, 0xAB12)] [(0x2000, 0x1256)] &&
      ends [0x9D10, 0x0300] 0x0000 [(1, 0xAB12)] [(0x0300, 0x2000), (0x2000, 0x3456)] 0x0102 0x0000 0x0000 0x0000 [(1, 0xAB12)] [(0x0300, 0x2000), (0x2000, 0x1256)] &&
      ends [0x9C10, 0x2000] 0x0000 [(1, 0xAB12)] [(0x2000, 0x3456)] 0x0102 0x0000 0x0000 0x0000 [(1, 0xAB12)] [(0x2000, 0x3412)] &&
      ends [0x9E12, 0x0300] 0x0000 [(1, 0xAB12), (2, 0x0001)] [(0x0301, 0x2000), (0x2000, 0x3456)] 0x0102 0x0000 0x0000 0x0000 [(1, 0xAB12), (2, 0x0001)] [(0x0301, 0x2000), (0x2000, 0x3412)]) = true := by decide +kernel

theorem test_move :
    (ends [0x9325] 0x0000 [(2, 0x3000), (3, 0x0000), (5, 0x1000)] [] 0x0101 0x0000 0x0000 0x0000 [(2, 0x3000), (3, 0x0000), (5, 0x1000)] [] &&
      ends [0x9325] 0x0000 [(2, 0x3000), (3, 0x0002), (5, 0x1000)] [(0x1000, 0xAAAA), (0x1001, 0xBBBB)] 0x0100 0x0000 0x0000 0x0000 [(2, 0x3001), (3, 0x0001), (5, 0x1001)] [(0x1000, 0xAAAA), (0x1001, 0xBBBB), (0x3000, 0xAAAA)]) = true := by decide +kernel

theorem test_add :
    (ends [0xA112] 0x0000 [(1, 0xFFFF), (2, 0x0001)] [] 0x0101 0xA000 0x0000 0x0000 [(1, 0x0000), (2, 0x0001)] [] &&
      ends [0xA112] 0x0000 [(1, 0x7FFF), (2, 0x0001)] [] 0x0101 0x1000 0x0800 0x0000 [(1, 0x8000), (2, 0x0001)] [] &&
      ends [0x1004] 0x0000 [(2, 0x0005), (12, 0x4000)] [(0x4004, 0xFFFB)] 0x0101 0xA000 0x0000 0x0000 [(2, 0x0000), (12, 0x4000)] [(0x4004, 0xFFFB)] &&
      ends [0x4043] 0x0000 [(2, 0x0001), (3, 0x0001), (12, 0x4000)] [(0x4001, 0x0001)] 0x0101 0x4000 0x0000 0x0000 [(2, 0x0002), (3, 0x0001), (12, 0x4000)] [(0x4001, 0x0001)] &&
      ends [0xA210] 0x0000 [(1, 0xFFFF)] [] 0x0101 0xA000 0x0000 0x0000 [(1, 0x0000)] [] &&
      ends [0xA21F] 0x0000 [(1, 0x7FF0)] [] 0x0101 0x1000 0x0800 0x0000 [(1, 0x8000)] [] &&
      ends [0xA010, 0x2000] 0x0000 [(1, 0x8000)] [(0x2000, 0x8000)] 0x0102 0xA000 0x0800 0x0000 [(1, 0x0000)] [(0x2000, 0x8000)] &&
      ends [0x4A11, 0x0010] 0x0000 [(1, 0x0005)] [] 0x0102 0x4000 0x0000 0x0000 [(1, 0x0015)] []) = true := by decide +kernel

theorem test_subtract :
    (ends [0xB112] 0x0000 [(1, 0x0005), (2, 0x0003)] [] 0x0101 0xC000 0x0000 0x0000 [(1, 0x0002), (2, 0x0003)] [] &&
      ends [0xB112] 0x0000 [(1, 0x8000), (2, 0x0001)] [] 0x0101 0xC000 0x0800 0x0000 [(1, 0x7FFF), (2, 0x0001)] [] &&
      ends [0x1500] 0x0000 [(2, 0x0000), (13, 0x4000)] [(0x4000, 0x0001)] 0x0101 0x1000 0x0000 0x0000 [(2, 0xFFFF), (13, 0x4000)] [(0x4000, 0x0001)] &&
      ends [0x4052] 0x0000 [(2, 0x0002), (12, 0x4000)] [(0x4002, 0x0002)] 0x0101 0xA000 0x0000 0x0000 [(2, 0x0000), (12, 0x4000)] [(0x4002, 0x0002)] &&
      ends [0xB21F] 0x0000 [(1, 0x0010)] [] 0x0101 0xA000 0x0000 0x0000 [(1, 0x0000)] [] &&
      ends [0xB010, 0x2000] 0x0000 [(1, 0x7FFF)] [(0x2000, 0xFFFF)] 0x0102 0x1000 0x0800 0x0000 [(1, 0x8000)] [(0x2000, 0xFFFF)] &&
      ends [0x4A12, 0x0001] 0x0000 [(1, 0x0000)] [] 0x0102 0x1000 0x0000 0x0000 [(1, 0xFFFF)] []) = true := by decide +kernel

theorem test_add_subtract_double :
    (ends [0xA702] 0x0000 [(0, 0x0000), (1, 0xFFFF), (2, 0x0000), (3, 0x0001)] [] 0x0101 0x4000 0x0000 0x0000 [(0, 0x0001), (1, 0x0000), (2, 0x0000), (3, 0x0001)] [] &&
      ends [0xA702] 0x0000 [(0, 0x7FFF), (1, 0xFFFF), (2, 0x0000), (3, 0x0001)] [] 0x0101 0x1000 0x0800 0x0000 [(0, 0x8000), (1, 0x0000), (2, 0x0000), (3, 0x0001)] [] &&
      ends [0xA600, 0x2000] 0x0000 [(0, 0xFFFF), (1, 0xFFFF)] [(0x2000, 0x0000), (0x2001, 0x0001)] 0x0102 0xA000 0x0000 0x0000 [(0, 0x0000), (1, 0x0000)] [(0x2000, 0x0000), (0x2001, 0x0001)] &&
      ends [0xB702] 0x0000 [(0, 0x0000), (1, 0x0000), (2, 0x0000), (3, 0x0001)] [] 0x0101 0x1000 0x0000 0x0000 [(0, 0xFFFF), (1, 0xFFFF), (2, 0x0000), (3, 0x0001)] [] &&
      ends [0xB600, 0x2000] 0x0000 [(0, 0x8000), (1, 0x0000)] [(0x2000, 0x0000), (0x2001, 0x0001)] 0x0102 0xC000 0x0800 0x0000 [(0, 0x7FFF), (1, 0xFFFF)] [(0x2000, 0x0000), (0x2001, 0x0001)]) = true := by decide +kernel

theorem test_increment_memory :
    (ends [0xA300, 0x2000] 0x0000 [] [(0x2000, 0xFFFF)] 0x0102 0xA000 0x0000 0x0000 [] [(0x2000, 0x0000)] &&
      ends [0xA300, 0x2000] 0x0000 [] [(0x2000, 0x7FFF)] 0x0102 0x1000 0x0800 0x0000 [] [(0x2000, 0x8000)] &&
      ends [0xB300, 0x2000] 0x0000 [] [(0x2000, 0x0000)] 0x0102 0x1000 0x0000 0x0000 [] [(0x2000, 0xFFFF)] &&
      ends [0xB300, 0x2000] 0x0000 [] [(0x2000, 0x8000)] 0x0102 0xC000 0x0800 0x0000 [] [(0x2000, 0x7FFF)]) = true := by decide +kernel

theorem test_absolute_negate :
    (ends [0xA412] 0x0000 [(2, 0xFFFB)] [] 0x0101 0x4000 0x0000 0x0000 [(1, 0x0005), (2, 0xFFFB)] [] &&
      ends [0xA412] 0x0000 [(2, 0x8000)] [] 0x0101 0x1000 0x0800 0x0000 [(1, 0x8000), (2, 0x8000)] [] &&
      ends [0xA524] 0x0000 [(4, 0xFFFF), (5, 0xFFFF)] [] 0x0101 0x4000 0x0000 0x0000 [(3, 0x0001), (4, 0xFFFF), (5, 0xFFFF)] [] &&
      ends [0xB412] 0x0000 [(2, 0x0001)] [] 0x0101 0x1000 0x0000 0x0000 [(1, 0xFFFF), (2, 0x0001)] [] &&
      ends [0xB412] 0x0000 [(2, 0x8000)] [] 0x0101 0x1000 0x0800 0x0000 [(1, 0x8000), (2, 0x8000)] [] &&
      ends [0xB500] 0x0000 [(0, 0x0000), (1, 0x0001)] [] 0x0101 0x1000 0x0000 0x0000 [(0, 0xFFFF), (1, 0xFFFF)] []) = true := by decide +kernel

theorem test_multiply_single :
    (ends [0xC112] 0x0000 [(1, 0x0003), (2, 0xFFFE)] [] 0x0101 0x1000 0x0000 0x0000 [(1, 0xFFFA), (2, 0xFFFE)] [] &&
      ends [0xC112] 0x0000 [(1, 0xFFFF), (2, 0x8000)] [] 0x0101 0x1000 0x0800 0x0000 [(1, 0x8000), (2, 0x8000)] [] &&
      ends [0xC21F] 0x0000 [(1, 0x0800)] [] 0x0101 0x1000 0x0800 0x0000 [(1, 0x8000)] [] &&
      ends [0xC310] 0x0000 [(1, 0x0005)] [] 0x0101 0x1000 0x0000 0x0000 [(1, 0xFFFB)] [] &&
      ends [0xC310] 0x0000 [(1, 0x8000)] [] 0x0101 0x1000 0x0800 0x0000 [(1, 0x8000)] [] &&
      ends [0xC010, 0x2000] 0x0000 [(1, 0xFFFF)] [(0x2000, 0xFFFF)] 0x0102 0x4000 0x0000 0x0000 [(1, 0x0001)] [(0x2000, 0xFFFF)] &&
      ends [0x4A14, 0x000A] 0x0000 [(1, 0x0007)] [] 0x0102 0x4000 0x0000 0x0000 [(1, 0x0046)] []) = true := by decide +kernel

theorem test_multiply_to_double :
    (ends [0xC524] 0x0000 [(2, 0x8000), (4, 0x8000)] [] 0x0101 0x4000 0x0000 0x0000 [(2, 0x4000), (4, 0x8000)] [] &&
      ends [0xC512] 0x0000 [(1, 0x0100), (2, 0x0100)] [] 0x0101 0x4000 0x0000 0x0000 [(1, 0x0001), (2, 0x0000)] [] &&
      ends [0x1804] 0x0000 [(2, 0x7FFF), (12, 0x4000)] [(0x4004, 0x7FFF)] 0x0101 0x4000 0x0000 0x0000 [(2, 0x3FFF), (3, 0x0001), (12, 0x4000)] [(0x4004, 0x7FFF)] &&
      ends [0x4265] 0x0000 [(2, 0x0002), (5, 0x0002), (14, 0x4000)] [(0x4002, 0xFFFF)] 0x0101 0x1000 0x0000 0x0000 [(2, 0xFFFF), (3, 0xFFFE), (5, 0x0002), (14, 0x4000)] [(0x4002, 0xFFFF)] &&
      ends [0xC400, 0x2000] 0x0000 [(0, 0x0000)] [(0x2000, 0x1234)] 0x0102 0x2000 0x0000 0x0000 [(0, 0x0000)] [(0x2000, 0x1234)] &&
      ends [0x4A03, 0x0100] 0x0000 [(0, 0x0100)] [] 0x0102 0x4000 0x0000 0x0000 [(0, 0x0001)] []) = true := by decide +kernel

theorem test_multiply_double :
    (ends [0xC702] 0x0000 [(0, 0xFFFF), (1, 0xFFFF), (2, 0x0000), (3, 0x0003)] [] 0x0101 0x1000 0x0000 0x0000 [(0, 0xFFFF), (1, 0xFFFD), (2, 0x0000), (3, 0x0003)] [] &&
      ends [0xC702] 0x0000 [(0, 0x0001), (1, 0x0000), (2, 0x0001), (3, 0x0000)] [] 0x0101 0x2000 0x0800 0x0000 [(0, 0x0000), (1, 0x0000), (2, 0x0001), (3, 0x0000)] [] &&
      ends [0xC600, 0x2000] 0x0000 [(0, 0x0000), (1, 0x1000)] [(0x2000, 0x0000), (0x2001, 0x1000)] 0x0102 0x4000 0x0000 0x0000 [(0, 0x0100), (1, 0x0000)] [(0x2000, 0x0000), (0x2001, 0x1000)]) = true := by decide +kernel

theorem test_divide_single :
    (ends [0xD142] 0x0000 [(2, 0x0002), (4, 0xFFF9)] [] 0x0101 0x1000 0x0000 0x0000 [(2, 0x0002), (4, 0xFFFD), (5, 0xFFFF)] [] &&
      ends [0xD142] 0x0000 [(2, 0x0000), (4, 0x1234), (5, 0x5555)] [] 0x0101 0x2000 0x0800 0x0000 [(2, 0x0000), (4, 0x0000), (5, 0x0000)] [] &&
      ends [0xD243] 0x0000 [(4, 0x0011)] [] 0x0101 0x4000 0x0000 0x0000 [(4, 0x0004), (5, 0x0001)] [] &&
      ends [0xD341] 0x0000 [(4, 0x0007)] [] 0x0101 0x1000 0x0000 0x0000 [(4, 0xFFFD), (5, 0x0001)] [] &&
      ends [0xD040, 0x2000] 0x0000 [(4, 0xFF9C)] [(0x2000, 0xFFF9)] 0x0102 0x4000 0x0000 0x0000 [(4, 0x000E), (5, 0xFFFE)] [(0x2000, 0xFFF9)] &&
      ends [0x4A46, 0x000A] 0x0000 [(4, 0x0064), (5, 0x0009)] [] 0x0102 0x4000 0x0000 0x0000 [(4, 0x000A), (5, 0x0000)] []) = true := by decide +kernel

theorem test_divide_double_by_single :
    (ends [0xD542] 0x0000 [(2, 0x0003), (4, 0x0001), (5, 0x0000)] [] 0x0101 0x4000 0x0000 0x0000 [(2, 0x0003), (4, 0x5555), (5, 0x0001)] [] &&
      ends [0xD542] 0x0000 [(2, 0x0001), (4, 0x0000), (5, 0x8000)] [] 0x0101 0x1000 0x0800 0x0000 [(2, 0x0001), (4, 0x8000), (5, 0x0000)] [] &&
      ends [0x1D02] 0x0000 [(2, 0x0000), (3, 0x0064), (13, 0x4000)] [(0x4002, 0x0007)] 0x0101 0x4000 0x0000 0x0000 [(2, 0x000E), (3, 0x0002), (13, 0x4000)] [(0x4002, 0x0007)] &&
      ends [0x4074] 0x0000 [(2, 0xFFFF), (3, 0xFF9C), (4, 0x0001), (12, 0x4000)] [(0x4001, 0x0007)] 0x0101 0x1000 0x0000 0x0000 [(2, 0xFFF2), (3, 0xFFFE), (4, 0x0001), (12, 0x4000)] [(0x4001, 0x0007)] &&
      ends [0xD440, 0x2000] 0x0000 [(4, 0x0000), (5, 0x000A)] [(0x2000, 0xFFFD)] 0x0102 0x1000 0x0000 0x0000 [(4, 0xFFFD), (5, 0x0001)] [(0x2000, 0xFFFD)] &&
      ends [0x4A45, 0x0064] 0x0000 [(4, 0xFFFF), (5, 0xFF38)] [] 0x0102 0x1000 0x0000 0x0000 [(4, 0xFFFE), (5, 0x0000)] []) = true := by decide +kernel

theorem test_divide_double :
    (ends [0xD702] 0x0000 [(0, 0xFFFF), (1, 0xFFF9), (2, 0x0000), (3, 0x0002)] [] 0x0101 0x1000 0x0000 0x0000 [(0, 0xFFFF), (1, 0xFFFD), (2, 0x0000), (3, 0x0002)] [] &&
      ends [0xD702] 0x0000 [(0, 0x8000), (1, 0x0000), (2, 0xFFFF), (3, 0xFFFF)] [] 0x0101 0x1000 0x0800 0x0000 [(0, 0x8000), (1, 0x0000), (2, 0xFFFF), (3, 0xFFFF)] [] &&
      ends [0xD600, 0x2000] 0x0000 [(0, 0x1234), (1, 0x5678)] [(0x2000, 0x0000), (0x2001, 0x0000)] 0x0102 0x2000 0x0800 0x0000 [(0, 0x0000), (1, 0x0000)] [(0x2000, 0x0000), (0x2001, 0x0000)]) = true := by decide +kernel

theorem test_float_add :
    (ends [0xA902] 0x0000 [(0, 0x4000), (1, 0x0001), (2, 0x4000), (3, 0x0001)] [] 0x0101 0x4000 0x0000 0x0000 [(0, 0x4000), (1, 0x0002), (2, 0x4000), (3, 0x0001)] [] &&
      ends [0xA902] 0x0000 [(0, 0x7FFF), (1, 0xFF7F), (2, 0x7FFF), (3, 0xFF7F)] [] 0x0101 0x4000 0x1000 0x0000 [(0, 0x7FFF), (1, 0xFF7F), (2, 0x7FFF), (3, 0xFF7F)] [] &&
      ends [0xA800, 0x2000] 0x0000 [(0, 0x6000), (1, 0x0001)] [(0x2000, 0x4000), (0x2001, 0x00FF)] 0x0102 0x4000 0x0000 0x0000 [(0, 0x7000), (1, 0x0001)] [(0x2000, 0x4000), (0x2001, 0x00FF)] &&
      ends [0x2002] 0x0000 [(0, 0x4000), (1, 0x0001), (12, 0x4000)] [(0x4002, 0x4000), (0x4003, 0x0001)] 0x0101 0x4000 0x0000 0x0000 [(0, 0x4000), (1, 0x0002), (12, 0x4000)] [(0x4002, 0x4000), (0x4003, 0x0001)] &&
      ends [0x4184] 0x0000 [(0, 0x4000), (1, 0x0001), (4, 0x0006), (13, 0x4000)] [(0x4006, 0x8000), (0x4007, 0x0000)] 0x0101 0x2000 0x0000 0x0000 [(0, 0x0000), (1, 0x0000), (4, 0x0006), (13, 0x4000)] [(0x4006, 0x8000), (0x4007, 0x0000)]) = true := by decide +kernel

theorem test_float_subtract :
    (ends [0xB902] 0x0000 [(0, 0x5000), (1, 0x0004), (2, 0x5400), (3, 0x0004)] [] 0x0101 0x1000 0x0000 0x0000 [(0, 0x8000), (1, 0x00FF), (2, 0x5400), (3, 0x0004)] [] &&
      ends [0xB902] 0x0000 [(0, 0x4000), (1, 0x0080), (2, 0x6000), (3, 0x0080)] [] 0x0101 0x2000 0x0200 0x0000 [(0, 0x0000), (1, 0x0000), (2, 0x6000), (3, 0x0080)] [] &&
      ends [0xB800, 0x3000] 0x0000 [(0, 0x4000), (1, 0x0002)] [(0x3000, 0x4000), (0x3001, 0x0001)] 0x0102 0x4000 0x0000 0x0000 [(0, 0x4000), (1, 0x0001)] [(0x3000, 0x4000), (0x3001, 0x0001)] &&
      ends [0x2400] 0x0000 [(0, 0x4000), (1, 0x0002), (12, 0x3000)] [(0x3000, 0x4000), (0x3001, 0x0001)] 0x0101 0x4000 0x0000 0x0000 [(0, 0x4000), (1, 0x0001), (12, 0x3000)] [(0x3000, 0x4000), (0x3001, 0x0001)] &&
      ends [0x4092] 0x0000 [(0, 0x4000), (1, 0x0002), (2, 0x0001), (12, 0x2FFF)] [(0x3000, 0x4000), (0x3001, 0x0001)] 0x0101 0x4000 0x0000 0x0000 [(0, 0x4000), (1, 0x0001), (2, 0x0001), (12, 0x2FFF)] [(0x3000, 0x4000), (0x3001, 0x0001)]) = true := by decide +kernel

theorem test_float_multiply :
    (ends [0xC902] 0x0000 [(0, 0x4000), (1, 0x0002), (2, 0x6000), (3, 0x0002)] [] 0x0101 0x4000 0x0000 0x0000 [(0, 0x6000), (1, 0x0003), (2, 0x6000), (3, 0x0002)] [] &&
      ends [0xC902] 0x0000 [(0, 0x4000), (1, 0x007F), (2, 0x4000), (3, 0x0001)] [] 0x0101 0x4000 0x1000 0x0000 [(0, 0x7FFF), (1, 0xFF7F), (2, 0x4000), (3, 0x0001)] [] &&
      ends [0xC800, 0x2000] 0x0000 [(0, 0xA000), (1, 0x0000)] [(0x2000, 0x4000), (0x2001, 0x0001)] 0x0102 0x1000 0x0000 0x0000 [(0, 0xA000), (1, 0x0000)] [(0x2000, 0x4000), (0x2001, 0x0001)] &&
      ends [0x2800] 0x0000 [(0, 0x4000), (1, 0x0002), (12, 0x3000)] [(0x3000, 0x4000), (0x3001, 0x0002)] 0x0101 0x4000 0x0000 0x0000 [(0, 0x4000), (1, 0x0003), (12, 0x3000)] [(0x3000, 0x4000), (0x3001, 0x0002)] &&
      ends [0x40A2] 0x0000 [(0, 0x4000), (1, 0x0002), (2, 0x0001), (12, 0x2FFF)] [(0x3000, 0x4000), (0x3001, 0x0002)] 0x0101 0x4000 0x0000 0x0000 [(0, 0x4000), (1, 0x0003), (2, 0x0001), (12, 0x2FFF)] [(0x3000, 0x4000), (0x3001, 0x0002)]) = true := by decide +kernel

theorem test_float_divide :
    (ends [0xD902] 0x0000 [(0, 0x4000), (1, 0x0001), (2, 0x6000), (3, 0x0002)] [] 0x0101 0x4000 0x0000 0x0000 [(0, 0x5555), (1, 0x55FF), (2, 0x6000), (3, 0x0002)] [] &&
      ends [0xD902] 0x0000 [(0, 0xA000), (1, 0x0000), (2, 0x0000), (3, 0x0000)] [] 0x0101 0x1000 0x1000 0x0000 [(0, 0x8000), (1, 0x007F), (2, 0x0000), (3, 0x0000)] [] &&
      ends [0xD840, 0x3000] 0x0000 [(4, 0x4000), (5, 0x0003)] [(0x3000, 0x4000), (0x3001, 0x0002)] 0x0102 0x4000 0x0000 0x0000 [(4, 0x4000), (5, 0x0002)] [(0x3000, 0x4000), (0x3001, 0x0002)] &&
      ends [0x2C00] 0x0000 [(0, 0x4000), (1, 0x0003), (12, 0x3000)] [(0x3000, 0x4000), (0x3001, 0x0002)] 0x0101 0x4000 0x0000 0x0000 [(0, 0x4000), (1, 0x0002), (12, 0x3000)] [(0x3000, 0x4000), (0x3001, 0x0002)] &&
      ends [0x40B2] 0x0000 [(0, 0x4000), (1, 0x0003), (2, 0x0001), (12, 0x2FFF)] [(0x3000, 0x4000), (0x3001, 0x0002)] 0x0101 0x4000 0x0000 0x0000 [(0, 0x4000), (1, 0x0002), (2, 0x0001), (12, 0x2FFF)] [(0x3000, 0x4000), (0x3001, 0x0002)]) = true := by decide +kernel

theorem test_float_magnitude :
    (ends [0xAC02] 0x0000 [(2, 0xA000), (3, 0x0003)] [] 0x0101 0x4000 0x0000 0x0000 [(0, 0x6000), (1, 0x0003), (2, 0xA000), (3, 0x0003)] [] &&
      ends [0xAC02] 0x0000 [(2, 0x8000), (3, 0x007F)] [] 0x0101 0x4000 0x1000 0x0000 [(0, 0x7FFF), (1, 0xFF7F), (2, 0x8000), (3, 0x007F)] [] &&
      ends [0xBC00] 0x0000 [(0, 0x4000), (1, 0x0001)] [] 0x0101 0x1000 0x0000 0x0000 [(0, 0x8000), (1, 0x0000)] [] &&
      ends [0xBC00] 0x0000 [(0, 0x4000), (1, 0x0080)] [] 0x0101 0x2000 0x0200 0x0000 [(0, 0x0000), (1, 0x0000)] []) = true := by decide +kernel

theorem test_float_convert :
    (ends [0xE820] 0x0000 [(0, 0x5000), (1, 0x0004)] [] 0x0101 0x4000 0x0000 0x0000 [(0, 0x5000), (1, 0x0004), (2, 0x000A)] [] &&
      ends [0xE820] 0x2000 [(0, 0x4000), (1, 0x0010), (2, 0x1111)] [] 0x0101 0x2000 0x0800 0x0000 [(0, 0x4000), (1, 0x0010), (2, 0x1111)] [] &&
      ends [0xE902] 0x0000 [(2, 0x0001)] [] 0x0101 0x4000 0x0000 0x0000 [(0, 0x4000), (1, 0x0001), (2, 0x0001)] [] &&
      ends [0xE902] 0x0000 [(2, 0x000A)] [] 0x0101 0x4000 0x0000 0x0000 [(0, 0x5000), (1, 0x0004), (2, 0x000A)] [] &&
      ends [0xEA40] 0x0000 [(0, 0x5000), (1, 0x0004), (2, 0x0000)] [] 0x0101 0x4000 0x0000 0x0000 [(0, 0x5000), (1, 0x0004), (2, 0x0000), (5, 0x000A)] [] &&
      ends [0xEA40] 0x0000 [(0, 0x4000), (1, 0x0020), (2, 0x0000), (4, 0x0007)] [] 0x0101 0x0000 0x0800 0x0000 [(0, 0x4000), (1, 0x0020), (2, 0x0000), (4, 0x0007)] [] &&
      ends [0xEB04] 0x0000 [(4, 0x0000), (5, 0x000A)] [] 0x0101 0x4000 0x0000 0x0000 [(0, 0x5000), (1, 0x0004), (4, 0x0000), (5, 0x000A)] [] &&
      ends [0xEB04] 0x0000 [(4, 0x7FFF), (5, 0xFFFF)] [] 0x0101 0x4000 0x0000 0x0000 [(0, 0x7FFF), (1, 0xFF1F), (2, 0xFF00), (4, 0x7FFF), (5, 0xFFFF)] []) = true := by decide +kernel

theorem test_extended_float :
    (ends [0xAB04] 0x0000 [(0, 0x4000), (1, 0x0001), (2, 0x0000), (4, 0x4000), (5, 0x0001), (6, 0x0000)] [] 0x0101 0x4000 0x0000 0x0000 [(0, 0x4000), (1, 0x0002), (2, 0x0000), (4, 0x4000), (5, 0x0001), (6, 0x0000)] [] &&
      ends [0xAB04] 0x0000 [(0, 0x4000), (1, 0x0001), (2, 0x0000), (4, 0x4000), (5, 0x00DB), (6, 0x0000)] [] 0x0101 0x4000 0x0000 0x0000 [(0, 0x4000), (1, 0x0001), (2, 0x0001), (4, 0x4000), (5, 0x00DB), (6, 0x0000)] [] &&
      ends [0xAA00, 0x3000] 0x0000 [(0, 0x4000), (1, 0x0001)] [(0x3000, 0x4000), (0x3001, 0x0001), (0x3002, 0x0000)] 0x0102 0x4000 0x0000 0x0000 [(0, 0x4000), (1, 0x0002)] [(0x3000, 0x4000), (0x3001, 0x0001), (0x3002, 0x0000)] &&
      ends [0xBB04] 0x0000 [(0, 0x4000), (1, 0x0001), (2, 0x0000), (4, 0x4000), (5, 0x0001), (6, 0x0000)] [] 0x0101 0x2000 0x0000 0x0000 [(0, 0x0000), (1, 0x0000), (2, 0x0000), (4, 0x4000), (5, 0x0001), (6, 0x0000)] [] &&
      ends [0xBA00, 0x3000] 0x0000 [(0, 0x4000), (1, 0x0002)] [(0x3000, 0x4000), (0x3001, 0x0001), (0x3002, 0x0000)] 0x0102 0x4000 0x0000 0x0000 [(0, 0x4000), (1, 0x0001)] [(0x3000, 0x4000), (0x3001, 0x0001), (0x3002, 0x0000)] &&
      ends [0xCB04] 0x0000 [(0, 0x4000), (1, 0x0002), (2, 0x0000), (4, 0x6000), (5, 0x0002), (6, 0x0000)] [] 0x0101 0x4000 0x0000 0x0000 [(0, 0x6000), (1, 0x0003), (2, 0x0000), (4, 0x6000), (5, 0x0002), (6, 0x0000)] [] &&
      ends [0xCA00, 0x3000] 0x0000 [(0, 0x4000), (1, 0x0002)] [(0x3000, 0x4000), (0x3001, 0x0002), (0x3002, 0x0000)] 0x0102 0x4000 0x0000 0x0000 [(0, 0x4000), (1, 0x0003)] [(0x3000, 0x4000), (0x3001, 0x0002), (0x3002, 0x0000)] &&
      ends [0xDB04] 0x0000 [(0, 0x4000), (1, 0x0001), (2, 0x0000), (4, 0x6000), (5, 0x0002), (6, 0x0000)] [] 0x0101 0x4000 0x0000 0x0000 [(0, 0x5555), (1, 0x55FF), (2, 0x5555), (4, 0x6000), (5, 0x0002), (6, 0x0000)] [] &&
      ends [0xDA00, 0x3000] 0x0000 [(0, 0x4000), (1, 0x0003)] [(0x3000, 0x4000), (0x3001, 0x0002), (0x3002, 0x0000)] 0x0102 0x4000 0x0000 0x0000 [(0, 0x4000), (1, 0x0002)] [(0x3000, 0x4000), (0x3001, 0x0002), (0x3002, 0x0000)]) = true := by decide +kernel

theorem test_float_compare :
    (ends [0xF902] 0x0000 [(0, 0x4000), (1, 0x0001), (2, 0x6000), (3, 0x0002)] [] 0x0101 0x1000 0x0000 0x0000 [(0, 0x4000), (1, 0x0001), (2, 0x6000), (3, 0x0002)] [] &&
      ends [0xF902] 0x0000 [(0, 0x7FFF), (1, 0xFF7F), (2, 0x8000), (3, 0x007F)] [] 0x0101 0x4000 0x0000 0x0000 [(0, 0x7FFF), (1, 0xFF7F), (2, 0x8000), (3, 0x007F)] [] &&
      ends [0xF800, 0x3000] 0x0000 [(0, 0x4000), (1, 0x0002)] [(0x3000, 0x4000), (0x3001, 0x0001)] 0x0102 0x4000 0x0000 0x0000 [(0, 0x4000), (1, 0x0002)] [(0x3000, 0x4000), (0x3001, 0x0001)] &&
      ends [0x3C00] 0x0000 [(0, 0x4000), (1, 0x0002), (12, 0x3000)] [(0x3000, 0x4000), (0x3001, 0x0001)] 0x0101 0x4000 0x0000 0x0000 [(0, 0x4000), (1, 0x0002), (12, 0x3000)] [(0x3000, 0x4000), (0x3001, 0x0001)] &&
      ends [0x40D2] 0x0000 [(0, 0x4000), (1, 0x0002), (2, 0x0001), (12, 0x2FFF)] [(0x3000, 0x4000), (0x3001, 0x0001)] 0x0101 0x4000 0x0000 0x0000 [(0, 0x4000), (1, 0x0002), (2, 0x0001), (12, 0x2FFF)] [(0x3000, 0x4000), (0x3001, 0x0001)] &&
      ends [0xFB04] 0x0000 [(0, 0x4000), (1, 0x0001), (2, 0x0001), (4, 0x4000), (5, 0x0001), (6, 0x0000)] [] 0x0101 0x4000 0x0000 0x0000 [(0, 0x4000), (1, 0x0001), (2, 0x0001), (4, 0x4000), (5, 0x0001), (6, 0x0000)] [] &&
      ends [0xFA00, 0x3000] 0x0000 [(0, 0x4000), (1, 0x0002)] [(0x3000, 0x4000), (0x3001, 0x0001), (0x3002, 0x0000)] 0x0102 0x4000 0x0000 0x0000 [(0, 0x4000), (1, 0x0002)] [(0x3000, 0x4000), (0x3001, 0x0001), (0x3002, 0x0000)]) = true := by decide +kernel

theorem test_or_and :
    (ends [0xE112] 0x0000 [(1, 0x00F0), (2, 0x0F00)] [] 0x0101 0x4000 0x0000 0x0000 [(1, 0x0FF0), (2, 0x0F00)] [] &&
      ends [0x3000] 0x0000 [(2, 0x0000), (12, 0x4000)] [(0x4000, 0x8000)] 0x0101 0x1000 0x0000 0x0000 [(2, 0x8000), (12, 0x4000)] [(0x4000, 0x8000)] &&
      ends [0x40F1] 0x0000 [(1, 0x0001), (2, 0x0000), (12, 0x4000)] [(0x4001, 0x0000)] 0x0101 0x2000 0x0000 0x0000 [(1, 0x0001), (2, 0x0000), (12, 0x4000)] [(0x4001, 0x0000)] &&
      ends [0xE010, 0x2000] 0x0000 [(1, 0x0001)] [(0x2000, 0x0002)] 0x0102 0x4000 0x0000 0x0000 [(1, 0x0003)] [(0x2000, 0x0002)] &&
      ends [0x4A18, 0x8000] 0x0000 [(1, 0x0001)] [] 0x0102 0x1000 0x0000 0x0000 [(1, 0x8001)] [] &&
      ends [0xE312] 0x0000 [(1, 0xFF00), (2, 0x0FF0)] [] 0x0101 0x4000 0x0000 0x0000 [(1, 0x0F00), (2, 0x0FF0)] [] &&
      ends [0x3400] 0x0000 [(2, 0xFFFF), (12, 0x4000)] [(0x4000, 0x0000)] 0x0101 0x2000 0x0000 0x0000 [(2, 0x0000), (12, 0x4000)] [(0x4000, 0x0000)] &&
      ends [0x40E1] 0x0000 [(1, 0x0001), (2, 0xFFFF), (12, 0x4000)] [(0x4001, 0x8001)] 0x0101 0x1000 0x0000 0x0000 [(1, 0x0001), (2, 0x8001), (12, 0x4000)] [(0x4001, 0x8001)] &&
      ends [0xE210, 0x2000] 0x0000 [(1, 0xF0F0)] [(0x2000, 0x0F0F)] 0x0102 0x2000 0x0000 0x0000 [(1, 0x0000)] [(0x2000, 0x0F0F)] &&
      ends [0x4A17, 0x00FF] 0x0000 [(1, 0x1234)] [] 0x0102 0x4000 0x0000 0x0000 [(1, 0x0034)] []) = true := by decide +kernel

theorem test_xor_nand :
    (ends [0xE511] 0x0000 [(1, 0x1234)] [] 0x0101 0x2000 0x0000 0x0000 [(1, 0x0000)] [] &&
      ends [0xE410, 0x2000] 0x0000 [(1, 0xFFFF)] [(0x2000, 0x7FFF)] 0x0102 0x1000 0x0000 0x0000 [(1, 0x8000)] [(0x2000, 0x7FFF)] &&
      ends [0x4A19, 0xFFFF] 0x0000 [(1, 0x00FF)] [] 0x0102 0x1000 0x0000 0x0000 [(1, 0xFF00)] [] &&
      ends [0xE711] 0x0000 [(1, 0x00FF)] [] 0x0101 0x1000 0x0000 0x0000 [(1, 0xFF00)] [] &&
      ends [0xE610, 0x2000] 0x0000 [(1, 0xF0F0)] [(0x2000, 0xFF00)] 0x0102 0x4000 0x0000 0x0000 [(1, 0x0FFF)] [(0x2000, 0xFF00)] &&
      ends [0x4A1B, 0x0000] 0x0000 [(1, 0x1234)] [] 0x0102 0x1000 0x0000 0x0000 [(1, 0xFFFF)] []) = true := by decide +kernel

theorem test_exchange :
    (ends [0xEC30] 0x0000 [(3, 0x12F4)] [] 0x0101 0x1000 0x0000 0x0000 [(3, 0xF412)] [] &&
      ends [0xED12] 0x0000 [(1, 0x0001), (2, 0x8000)] [] 0x0101 0x1000 0x0000 0x0000 [(1, 0x8000), (2, 0x0001)] []) = true := by decide +kernel

theorem test_compare :
    (ends [0xF112] 0x0000 [(1, 0xFFFF), (2, 0x0001)] [] 0x0101 0x1000 0x0000 0x0000 [(1, 0xFFFF), (2, 0x0001)] [] &&
      ends [0xF112] 0x0000 [(1, 0x8000), (2, 0x7FFF)] [] 0x0101 0x1000 0x0000 0x0000 [(1, 0x8000), (2, 0x7FFF)] [] &&
      ends [0x3800] 0x0000 [(2, 0x0005), (12, 0x4000)] [(0x4000, 0x0005)] 0x0101 0x2000 0x0000 0x0000 [(2, 0x0005), (12, 0x4000)] [(0x4000, 0x0005)] &&
      ends [0x43C1] 0x0000 [(1, 0x0001), (2, 0x0005), (15, 0x4000)] [(0x4001, 0x0004)] 0x0101 0x4000 0x0000 0x0000 [(1, 0x0001), (2, 0x0005), (15, 0x4000)] [(0x4001, 0x0004)] &&
      ends [0xF21F] 0x0000 [(1, 0x0010)] [] 0x0101 0x2000 0x0000 0x0000 [(1, 0x0010)] [] &&
      ends [0xF310] 0x0000 [(1, 0x0000)] [] 0x0101 0x4000 0x0000 0x0000 [(1, 0x0000)] [] &&
      ends [0xF310] 0x0000 [(1, 0xFFFF)] [] 0x0101 0x2000 0x0000 0x0000 [(1, 0xFFFF)] [] &&
      ends [0xF010, 0x2000] 0x0000 [(1, 0x7FFF)] [(0x2000, 0x8000)] 0x0102 0x4000 0x0000 0x0000 [(1, 0x7FFF)] [(0x2000, 0x8000)] &&
      ends [0x4A2A, 0x0064] 0x0000 [(2, 0x0063)] [] 0x0102 0x1000 0x0000 0x0000 [(2, 0x0063)] [] &&
      ends [0xF410, 0x2000] 0x0000 [(1, 0xFFF5)] [(0x2000, 0xFFF6), (0x2001, 0x000A)] 0x0102 0x1000 0x0000 0x0000 [(1, 0xFFF5)] [(0x2000, 0xFFF6), (0x2001, 0x000A)] &&
      ends [0xF410, 0x2000] 0x0000 [(1, 0x0000)] [(0x2000, 0xFFF6), (0x2001, 0x000A)] 0x0102 0x2000 0x0000 0x0000 [(1, 0x0000)] [(0x2000, 0xFFF6), (0x2001, 0x000A)] &&
      ends [0xF702] 0x0000 [(0, 0x0000), (1, 0x0001), (2, 0xFFFF), (3, 0xFFFF)] [] 0x0101 0x4000 0x0000 0x0000 [(0, 0x0000), (1, 0x0001), (2, 0xFFFF), (3, 0xFFFF)] [] &&
      ends [0xF600, 0x2000] 0x0000 [(0, 0x8000), (1, 0x0000)] [(0x2000, 0x7FFF), (0x2001, 0xFFFF)] 0x0102 0x1000 0x0000 0x0000 [(0, 0x8000), (1, 0x0000)] [(0x2000, 0x7FFF), (0x2001, 0xFFFF)]) = true := by decide +kernel

theorem test_nop_breakpoint_builtin :
    (ends [0xFF00] 0xA000 [] [] 0x0101 0xA000 0x0000 0x0000 [] [] &&
      ends [0xFFFF] 0x0000 [] [] 0x0101 0x0000 0x0000 0x0000 [] [] &&
      ends [0x4F01] 0x0000 [] [] 0x0101 0x0000 0x4000 0x0040 [] []) = true := by decide +kernel

theorem test_illegal_words :
    (ends [0x7713] 0x0000 [] [] 0x0101 0x0000 0x4000 0x0040 [] [] &&
      ends [0xEC31] 0x0000 [(3, 0x12F4)] [] 0x0101 0x0000 0x4000 0x0040 [(3, 0x12F4)] [] &&
      ends [0xFF01] 0x0000 [] [] 0x0101 0x0000 0x4000 0x0040 [] [] &&
      ends [0x4A10, 0x1234] 0x0000 [(1, 0x0005)] [] 0x0101 0x0000 0x4000 0x0040 [(1, 0x0005)] []) = true := by decide +kernel

/-! Taking and returning from interrupts: the worked example of 60_exceptions R820 (95_test_vectors). -/

/-- The start of the example, with the handler's code. -/
def example820 : State :=
  { small 0 [(1, 0x7FFF), (2, 0x0001)] [(0x28, 0x0400), (0x29, 0x0410), (0x0100, 0xA112), (0x0410, 0x4000), (0x0411, 0),
      (0x0412, 0x0800), (0x0800, 0x4800), (0x0801, 0x2002), (0x0802, 0x7D00), (0x0803, 0x0400)] with
    mask := 0xFFFF#16, ie := true }

/-- The state a next outcome holds. -/
def after (o : Out) : State :=
  match o with
  | .next t => t
  | _ => State.reset

/-- The word in memory. -/
def wordAt (s : State) (p : Nat) : Nat := (Memory.readWord s.mem (BitVec.ofNat 20 p)).toNat

theorem test_overflow_interrupt :
    (let t := after (step example820)
     t.ic.toNat == 0x0800 && t.mask.toNat == 0x4000 && t.pi.toNat == 0 && !t.ie && t.sw.toNat == 0 &&
       wordAt t 0x0400 == 0xFFFF && wordAt t 0x0401 == 0x1000 && wordAt t 0x0402 == 0x0101) = true := by decide +kernel

/-- The example's handler at its LST, ENBL executed. -/
def handler820 : State :=
  { after (step example820) with ic := 0x0802#16, enblPending := true }

theorem test_return_enables :
    (let t := after (step handler820)
     t.ic.toNat == 0x0101 && t.mask.toNat == 0xFFFF && t.sw.toNat == 0x1000 && t.ie && !t.enblPending) = true := by
  decide +kernel

/-- BEX 3 with PS = 2: linkage at 0x0500, service area at 0x0510, entry 3 (43_jump_branch R463). -/
theorem test_bex :
    (let t := after (step { small 0x0020 [] [(0x0100, 0x7703), (0x2A, 0x0500), (0x2B, 0x0510), (0x0510, 0x00FF),
        (0x0511, 0x0000), (0x0515, 0x0900)] with ie := true, mask := 0x1234#16 })
     t.ic.toNat == 0x0900 && t.mask.toNat == 0x00FF && t.sw.toNat == 0 && !t.ie && t.pi.toNat == 0 &&
       wordAt t 0x0500 == 0x1234 && wordAt t 0x0501 == 0x0020 && wordAt t 0x0502 == 0x0101) = true := by decide +kernel

/-! XIO and VIO (40_io R300 to R380). -/

/-- The state after XIO with RA = R1 and the command. -/
def xio (c : Nat) (s : State) : State := after (exec (.xio 1 0 (BitVec.ofNat 16 c)) s)

/-- R1 holds the word. -/
def with1 (w : Nat) : State := small 0 [(1, w)] []

theorem test_xio_control :
    ((xio 0x2000 (with1 0xA5A5)).mask.toNat == 0xA5A5 &&
      (xio 0x2004 { with1 0xFFF1 with pi := 0x4800#16, ft := 0x0040#16 }).pi.toNat == 0x0800 &&
      (xio 0x2004 { with1 0xFFF1 with pi := 0x4800#16, ft := 0x0040#16 }).ft.toNat == 0 &&
      (xio 0x2005 { with1 0x0800 with pi := 0x0001#16 }).pi.toNat == 0x0801 &&
      (xio 0x200E (with1 0x8000)).sw.toNat == 0x8000 &&
      ((xio 0xA00F { with1 0 with pi := 0x4800#16, ft := 0x0040#16 }).reg 1).toNat == 0x0040 &&
      (xio 0xA00F { with1 0 with pi := 0x4800#16, ft := 0x0040#16 }).pi.toNat == 0x0800 &&
      ((xio 0xA000 { with1 0 with mask := 0x1234#16 }).reg 1).toNat == 0x1234) = true := by decide +kernel

theorem test_xio_timers_illegal_privileged :
    ((xio 0x400A (with1 0xFFF0)).timers.ta.toNat == 0xFFF0 && (xio 0x400E (with1 1)).timers.tb.toNat == 1 &&
      (xio 0x2006 (with1 7)).ft.toNat == 0x0400 && (xio 0x2006 (with1 7)).pi.toNat == 0x4000 &&
      (xio 0x2000 { with1 7 with sw := 0x0010#16 }).ft.toNat == 0x0020 &&
      (xio 0x2000 { with1 7 with sw := 0x0010#16 }).mask.toNat == 0) = true := by decide +kernel

/-- The table {400A, 8000, 1234} with R1 = 0: OTA with 1234 (40_io R380). -/
theorem test_vio_timer :
    (let t := after (exec (.vio 1 0 0x1000#16) (small 0 [] [(0x1000, 0x400A), (0x1001, 0x8000), (0x1002, 0x1234)]))
     t.timers.ta.toNat == 0x1234 && t.timers.taRun) = true := by decide +kernel

/-- Bits 0 and 2 with R1 = 7: SMK and then 200E, WSW; the data words follow in order. -/
theorem test_vio_chain :
    (let t := after (exec (.vio 1 0 0x1000#16) (small 0 [(1, 7)] [(0x1000, 0x2000), (0x1001, 0xA000), (0x1002, 0x1234),
        (0x1003, 0x4000)]))
     t.mask.toNat == 0x1234 && t.sw.toNat == 0x4000) = true := by decide +kernel

/-- LIM R3, 0x1234 as the first instruction after reset, through `withFetchWord`. -/
theorem test_first_instruction :
    (let t := after (step (State.reset.withFetchWord 32 0x12348530))
     (t.reg 3).toNat == 0x1234 && t.ic.toNat == 2) = true := by decide +kernel

/-! ## A state for every statement with hypotheses -/

/-- Every option present. -/
def full : Config :=
  { Config.standard with
    expanded := some { groups := .sixteen, lockKey := true }, memProtectRam := true, parity := true,
    rom := some [0x1111#16, 0x2222#16], ioic := true, mfsr := some MfsrLayout.adopted, dma := true, console := true,
    discretes := true, npuDiscrete := true, go := true, tpio := true, absent := [(0x3000, 0x1000)], ftImplemented := 0xFFFF#16,
    spareXio := [0x0400#16, 0xFF00#16], bifSet := [(0x01#8, 2)], ioDedicatedBase := some 0x0040#16 }

/-- The machine with every option, memory protection, DMA and the console on; page 1 execute and write protected, physical
page 3 absent, block protected words from 0x4000 on. -/
def big : State :=
  { writePage .instr 0 1 0x0801#16 (writePage .oper 0 1 0x0801#16 (State.resetWith full)) with
    mprotEn := true, mprot := (Vector.replicate 128 0x0000#16).set 1 0x8000#16, dmaEn := true,
    console := { data := 0x4142#16, status := 0x0001#16, connected := true }, mem := image [(0x2000, 0x0500)] }

/-- Words for operands (0x2000), pointers (0x2010), a stack (0x3000), and registers. -/
def ready : State :=
  small 0 [(0, 0x4000), (1, 0x0001), (2, 0x4000), (3, 0x0001), (4, 0x7FFF), (5, 0x2000), (12, 0x2000), (15, 0x3000)]
    [(0x2000, 0x4000), (0x2001, 0x0003), (0x2002, 0x8000), (0x2010, 0x2000), (0x3000, 0x0011), (0x3001, 0x0022),
     (0x3002, 0x0033), (0x3003, 0x0044), (0x3004, 0x0055)]

/-- Whether a reference faults. -/
def faults {ε α : Type} (r : Except ε α) : Bool :=
  match r with
  | .ok _ => false
  | .error _ => true

/-- Whether a load delivers this word and leaves the state `u`. -/
def gives {w : Nat} (r : Except Out (BitVec w × State)) (v : Nat) (u : State) : Bool :=
  match r with
  | .ok x => x.1.toNat == v && decide (x.2 = u)
  | .error _ => false

/-- Whether the turn before the next reference leaves the state `u`. -/
def turns (s u : State) : Bool :=
  match takeTurn s with
  | .ok t => decide (t = u)
  | .error _ => false

/-- Whether a read delivers this word. -/
def reads1 (r : Except State Word) (v : Nat) : Bool :=
  match r with
  | .ok x => x.toNat == v
  | .error _ => false

theorem witness_DecodeInvertsEncode :
    (Instr.lb 12 0x05#8).wellFormed = true ∧ (Instr.lbx 15 0).wellFormed = true ∧ (Instr.sll 0 1).wellFormed = true ∧
      (Instr.sll 15 16).wellFormed = true := by decide

theorem witness_EncodeInvertsDecode :
    decode 0x7F50#16 0x0000#16 = .ok (.urs 5) ∧ decode 0x7C05#16 0xFFFF#16 = .ok (.lsti 5 0xFFFF#16) := by decide +kernel

/-- One word and two words, with a timer tick before the first and before the second. -/
theorem witness_StepRunsDecodedInstruction :
    (let s := { example820 with env := [[.tickA]] }
     let u := { example820 with timers := { example820.timers with ta := 0x0001#16 } }
     turns s u = true ∧ u.halted = false ∧ reads1 (readNow (fetchAccess u) u.ic u) 0xA112 = true ∧
       decode 0xA112#16 0x0000#16 = .ok (.ar 1 2) ∧ (Instr.ar 1 2).words = 1) ∧
    (let s := { handler820 with env := [[], [.tickB]] }
     let u := { handler820 with env := [[.tickB]] }
     let v := { handler820 with ic := u.ic + 1, timers := { handler820.timers with tb := handler820.timers.tb + 1 } }
     turns s u = true ∧ u.halted = false ∧ reads1 (readNow (fetchAccess u) u.ic u) 0x7D00 = true ∧
       decode 0x7D00#16 0x0400#16 = .ok (.lst 0 0x0400#16) ∧ (Instr.lst 0 0x0400#16).words = 2 ∧
       turns { u with ic := u.ic + 1 } v = true ∧ reads1 (readNow (fetchAccess v) (u.ic + 1) v) 0x0400 = true) ∧
    faults (takeTurn { ready with env := [[.powerLoss]] }) = true := by decide +kernel

/-- A reserved word; a fetch in the protected page; a second word in it. -/
theorem witness_FetchFaultsAndIllegalWordsTrap :
    (let s := small 0 [] [(0x0100, 0x4410)]
     turns s s = true ∧ s.halted = false ∧ reads1 (readNow (fetchAccess s) s.ic s) 0x4410 = true) ∧
    (let s := { big with ic := 0x1000#16 }
     turns s s = true ∧ s.halted = false ∧ faults (readNow (fetchAccess s) s.ic s) = true) ∧
    (let s := { big with ic := 0x0FFF#16, mem := image [(0x0FFF, 0x8010)] }
     let x := { s with ic := s.ic + 1 }
     turns s s = true ∧ s.halted = false ∧ reads1 (readNow (fetchAccess s) s.ic s) 0x8010 = true ∧
       decode 0x8010#16 0x0000#16 = .ok (.l 1 0 0x0000#16) ∧ (Instr.l 1 0 0).words = 2 ∧
       turns { s with ic := s.ic + 1 } x = true ∧ faults (readNow (fetchAccess x) (s.ic + 1) x) = true) := by
  decide +kernel

theorem witness_FetchFaults_every_second_word : ∀ w1, ∃ e, decode 0x4410#16 w1 = .error e :=
  fun _ => ⟨_, rfl⟩

theorem witness_HaltedStepTakesEventsOnly :
    turns { ready with halted := true } { ready with halted := true } = true := by decide +kernel

/-- The stop happens, at the start of a step and before the second word of an instruction. -/
theorem witness_StepStopsOnlyOnPowerLoss :
    step { ready with env := [[.tickA, .powerLoss]] } = .fault .powerOff ∧
      step { small 0 [] [(0x0100, 0x8530)] with env := [[], [.powerLoss]] } = .fault .powerOff := by
  constructor <;> rfl

theorem witness_StepKeepsGoodState : Good example820 ∧ ∃ t, step example820 = .next t := by
  refine ⟨⟨by decide +kernel, ?_, by decide +kernel, by decide +kernel, by decide +kernel⟩, ?_⟩
  · intro kind
    cases kind <;> decide +kernel
  · exact ⟨_, rfl⟩

theorem witness_UnprivilegedInstructionIsConfined :
    psOf 0x0010#16 ≠ 0x0#4 ∧ (∀ n, Instr.st 1 0 0x2005#16 ≠ .bex n) ∧ (∀ n, Instr.bif 0x02#8 ≠ .bex n) ∧
      (∀ x, Instr.bif 0x02#8 = .bif x → ready.cfg.bifSet.lookup x = none) ∧
      (∀ es ∈ ({ ready with sw := 0x0010#16, env := [[], []] } : State).env, es = []) ∧
      Memory.wf { ready with sw := 0x0010#16 }.mem = true ∧
      ∃ t, exec (.st 1 0 0x2005#16) { ready with sw := 0x0010#16, env := [[], []] } = .next t :=
  ⟨by decide, by simp, by simp, fun _ _ => rfl, by decide, by decide +kernel, _, rfl⟩

/-- A reset in the middle of the schedule. -/
theorem witness_ResetHoldsTabulatedValues :
    ({ ready with env := [[.systemReset, .tickA], []] } : State).env = (.systemReset :: [.tickA]) :: [[]] := rfl

theorem witness_FaultsAndRequestsBecomePending :
    bitAt ready.cfg.ftImplemented 0 = true ∧ bitAt ready.cfg.ftImplemented 11 = true ∧
      bitAt ready.cfg.ftImplemented 15 = false ∧ bitAt full.ftImplemented 15 = true := by decide +kernel

/-- Masks that differ in bits 0 and 5 only. -/
theorem witness_EligibleFollowsMaskAndEnable :
    ∀ k : BitNo, k ≠ 0 → k ≠ 5 → bitAt 0x8400#16 k = bitAt ready.mask k := by decide +kernel

/-- Interrupts 4 and 7 pending and enabled; none. -/
theorem witness_BoundaryTakesSmallestEligible :
    (let u := { ready with pi := 0x0900#16, mask := 0xFFFF#16, ie := true }
     turns u u = true ∧ u.enblPending = false ∧ u.halted = false ∧ eligible u 4 = true ∧ eligible u 7 = true ∧
       ∀ k : BitNo, k < 4 → eligible u k = false) ∧
    turns ready ready = true ∧ ∀ n : BitNo, eligible ready n = false := by decide +kernel

/-- The words of the interrupt of R820, also as interrupt 1 has them. -/
theorem witness_InterruptSequenceSavesAndLoads :
    Memory.wf example820.mem = true ∧ QuietFor 8 example820 ∧ QuietFor 8 { example820 with env := [[], []] } ∧
      VectorReads 4 0x0000#16 0x0410#16 0x4000#16 0x0000#16 0x0800#16 0x0400#16 example820 ∧
      VectorReads 1 0x0000#16 0x0000#16 0x0000#16 0x0000#16 0x0000#16 0x0000#16 ready ∧
      LinkageWritable 0x0000#16 0x0400#16 example820 := by
  refine ⟨by decide +kernel, ?_, ?_, ⟨rfl, rfl, rfl, rfl, rfl⟩, ⟨rfl, rfl, rfl, rfl, rfl⟩, ?_⟩
  · unfold QuietFor
    decide +kernel
  · unfold QuietFor
    decide +kernel
  · unfold LinkageWritable
    decide +kernel

/-- The vector of the executive call, entry 15, in the machine with every option and PS = 2. -/
def calls : State :=
  { big with
    sw := 0x0020#16, mem := image [(0x2A, 0x0500), (0x2B, 0x0510), (0x0510, 0x00FF), (0x0511, 0x0001), (0x0521, 0x0900)] }

theorem witness_BexEntersExecutive :
    Memory.wf calls.mem = true ∧ QuietFor 8 calls ∧
      VectorReads 5 (BitVec.ofNat 16 (15 : Fin 16).val) 0x0510#16 0x00FF#16 0x0001#16 0x0900#16 0x0500#16 calls ∧
      LinkageWritable 0x0001#16 0x0500#16 calls := by
  refine ⟨by decide +kernel, ?_, ⟨rfl, rfl, rfl, rfl, rfl⟩, ?_⟩
  · unfold QuietFor
    decide +kernel
  · unfold LinkageWritable
    decide +kernel

/-- Both forms, with an address state that is implemented and one that is not. -/
theorem witness_LoadStatusLoadsThreeWords :
    psOf ready.sw = 0x0#4 ∧ gives (load 0x2000#16 ready) 0x4000 ready = true ∧ gives (load 0x2001#16 ready) 0x0003 ready = true ∧
      gives (load 0x2002#16 ready) 0x8000 ready = true ∧ 0x2000#16 = daLong 0 0x2000#16 ready ∧
      gives (daIndirect 0 0x2010#16 ready) 0x2000 ready = true ∧ groupImplemented ready.cfg (asOf 0x0003#16) = false ∧
      gives (load 0x2003#16 ready) 0 ready = true ∧ groupImplemented ready.cfg (asOf 0x8000#16) = true := by decide +kernel

/-- The state of R820 at its interrupt 4, and the linkage words readable again. -/
theorem witness_LstUndoesInterruptSequence :
    psOf 0x0000#16 = 0x0#4 ∧ Memory.wf example820.mem = true ∧ QuietFor 11 example820 ∧
      VectorReads 4 0x0000#16 0x0410#16 0x4000#16 0x0000#16 0x0800#16 0x0400#16 example820 ∧
      LinkageWritable 0x0000#16 0x0400#16 example820 ∧
      ∀ k, k < 3 → refFault example820 .cpu (linkageAccess 0x0000#16) false (0x0400#16 + BitVec.ofNat 16 k) = none ∧
        romWord example820 (linkageWord 0x0000#16 0x0400#16 example820 k) = none := by
  refine ⟨by decide, by decide +kernel, ?_, ⟨rfl, rfl, rfl, rfl, rfl⟩, ?_, by decide +kernel⟩
  · unfold QuietFor
    decide +kernel
  · unfold LinkageWritable
    decide +kernel

theorem witness_PrivilegedInstructionsTrap : psOf { ready with sw := 0x00F0#16 }.sw ≠ 0x0#4 := by decide

/-- A timer about to roll over, a stopped one, a halted processor, a machine without timers. -/
theorem witness_TimersCountAndRequest :
    (let s := { ready with timers := { ta := 0xFFFF#16, tb := 0x0000#16, taRun := true, tbRun := true } }
     s.cfg.timers = true ∧ s.halted = false ∧ s.timers.taRun = true ∧ s.timers.tbRun = true ∧
       65536 ≤ s.timers.ta.toNat + 1 ∧ ¬65536 ≤ s.timers.tb.toNat + 65535 ∧ 65536 ≤ s.timers.tb.toNat + 65536) ∧
    { ready with timers := { ready.timers with taRun := false } }.timers.taRun = false ∧
    { Config.standard with timers := false }.timers = false := by decide +kernel

/-- A word that is absent; one in the ROM; one after its end; one without a ROM; a turn that ends the step. -/
theorem witness_LoadReadsMemoryOrFaults :
    turns big big = true ∧ refFault big .cpu (operAccess big) false 0x3000#16 = some .illegalAddress ∧
    (refFault big .cpu (operAccess big) false 0x0001#16 = none ∧ big.cfg.rom = some [0x1111#16, 0x2222#16] ∧
      big.romEn = true ∧ (physOf big 0x0001#16).toNat < 65536 ∧
      [0x1111#16, 0x2222#16][(physOf big 0x0001#16).toNat]? = some 0x2222#16) ∧
    (refFault big .cpu (operAccess big) false 0x0002#16 = none ∧ 2 ≤ (physOf big 0x0002#16).toNat) ∧
    (turns ready ready = true ∧ refFault ready .cpu (operAccess ready) false 0xFFFF#16 = none ∧ ready.cfg.rom = none) ∧
    faults (takeTurn { ready with env := [[.systemReset]] }) = true := by decide +kernel

/-- A device has written before the store. -/
theorem witness_StoreThenReadGivesStoredWord :
    Memory.wf ready.mem = true ∧ turns ready ready = true ∧ Writable ready 0xFFFF#16 ∧ Memory.wf big.mem = true ∧
      (let s := { big with env := [[.device (.unmapped 0x00100#20) (.write 0x0001#16)]] }
       let u := physWrite big 0x00100#20 0x0001#16
       turns s u = true ∧ Writable u 0x0000#16) := by
  unfold Writable
  decide +kernel

/-- The absent page by each address mode, by the stack pointer and by MOV; behind a pointer; at the second and the third word
of an operand; at the second register of LM and of POPM. -/
theorem witness_FaultingReadAbandonsInstruction :
    (faults (load (daLong 0 0x3000#16 big) big) = true ∧ faults (load (daLong 5 0x0FFF#16 (big.setReg 5 0x2001#16)) big) = true ∧
      faults (load (daBase 12 0x10#8 (big.setReg 12 0x3000#16)) (big.setReg 12 0x3000#16)) = true ∧
      faults (load (daBaseIndexed 12 1 (big.setReg 12 0x3000#16)) (big.setReg 12 0x3000#16)) = true ∧
      faults (load ((big.setReg 7 0x3FFF#16).reg 7) (big.setReg 7 0x3FFF#16)) = true ∧ psOf big.sw = 0x0#4 ∧
      (big.setReg 7 0x0001#16).reg (6 + 1) ≠ 0x0000#16) ∧
    (let s := { big with mem := image [(0x2000, 0x3000), (0x2001, 0x2FFF)] }
     (gives (daIndirect 0 0x2000#16 s) 0x3000 s = true ∧ faults (load 0x3000#16 s) = true) ∧
       (gives (daIndirect 0 0x2001#16 s) 0x2FFF s = true ∧ gives (load 0x2FFF#16 s) 0 s = true ∧
         faults (load (0x2FFF#16 + 1) s) = true)) ∧
    (gives (load2 0x2FFE#16 big) 0 big = true ∧ faults (load (0x2FFE#16 + 2) big) = true ∧
      0x2FFE#16 = daBase 12 0x00#8 (big.setReg 12 0x2FFE#16)) ∧
    (QuietFor 2 big ∧ Reads big (daLong 0 0x2FFF#16 big + BitVec.ofNat 16 0) 0x0000#16 ∧
      refFault big .cpu (operAccess big) false (daLong 0 0x2FFF#16 big + BitVec.ofNat 16 1) = some .illegalAddress) ∧
    (let s := big.setReg 15 0x2FFF#16
     ((5 : Reg) - 4).val ≤ ((6 : Reg) - 4).val ∧ Reads s (s.reg 15 + BitVec.ofNat 16 ((4 : Reg) - 4).val) 0x0000#16 ∧
       refFault s .cpu (operAccess s) false (s.reg 15 + BitVec.ofNat 16 ((5 : Reg) - 4).val) = some .illegalAddress) := by
  unfold QuietFor Reads
  decide +kernel

/-- A protected page, a protected block, an absent word; the first two can be read; a word that a bit test finds zero; a count
of MOV. -/
theorem witness_FaultingStoreStoresNothing :
    (Memory.wf big.mem = true ∧ turns big big = true) ∧
    (refFault big .cpu (operAccess big) true (daLong 0 0x1000#16 big) = some .writeProtect ∧
      gives (load (daLong 0 0x1000#16 big) big) 0 big = true ∧ bitAt 0x0000#16 3 = false) ∧
    (refFault big .cpu (operAccess big) true (daLong 0 0x4000#16 big) = some .writeProtect ∧
      gives (load (daLong 0 0x4000#16 big) big) 0 big = true) ∧
    refFault big .cpu (operAccess big) true (daLong 0 0x3000#16 big) = some .illegalAddress ∧
    (let s := { big with mem := image [(0x2000, 0x1000)] }
     gives (daIndirect 0 0x2000#16 s) 0x1000 s = true ∧ refFault s .cpu (operAccess s) true 0x1000#16 = some .writeProtect) ∧
    (let s := (big.setReg 7 0x0001#16).setReg 6 0x1000#16
     s.reg (6 + 1) ≠ 0x0000#16 ∧ gives (load (s.reg 8) s) 0x1111 s = true ∧
       refFault s .cpu (operAccess s) true (s.reg 6) = some .writeProtect) ∧
    (let s := big.setReg 13 0x1001#16
     turns s s = true ∧ refFault s .cpu (operAccess s) true (s.reg 13 - 1) = some .writeProtect) := by decide +kernel

/-- DMA on: a reference with the wrong key, one that passes, a physical one, one to a block that the DMA half protects, one to
an absent word, one with a parity error; DMA off. -/
theorem witness_DeviceReferencesAreCheckedLikeOperands :
    (big.cfg.dma = true ∧ big.dmaEn = true) ∧
    refFault big .dma { kind := .oper, group := 0x0#4, key := 0x2#4 } true 0x2000#16 = some .access ∧
    refFault big .dma { kind := .oper, group := 0xF#4, key := 0x0#4 } true 0x2000#16 = none ∧
    refFault big .dma { kind := .oper, group := 0xF#4, key := 0x0#4 } false 0x2000#16 = none ∧
    physFault big .dma true 0xFFFFF#20 = none ∧ physFault big .dma false 0xFFFFF#20 = none ∧
    physFault { big with mprot := big.mprot.set 64 0x8000#16 } .dma true 0x003FF#20 = some .writeProtect ∧
    physFault big .dma true 0x03FFF#20 = some .illegalAddress ∧ physFault big .dma false 0x03000#20 = some .illegalAddress ∧
    physFault { big with parityBad := [5] } .dma false 0x00005#20 = some .parity ∧ ready.dmaEn = false := by decide +kernel

/-- Every reason for a refusal: the lock, an execute protected page, a write protected page, a block of the enabled RAM, all of
memory before it is enabled, an absent word, parity; and a reference that passes. -/
theorem witness_ReferencePassesExactlyWhenAllowed :
    refFault big .cpu { kind := .oper, group := 0x0#4, key := 0x2#4 } true 0x1000#16 = some .access ∧
    refFault big .cpu { kind := .instr, group := 0x0#4, key := 0x0#4 } false 0x1000#16 = some .executeProtect ∧
    refFault big .cpu { kind := .oper, group := 0x0#4, key := 0x0#4 } true 0x1000#16 = some .writeProtect ∧
    refFault big .cpu { kind := .oper, group := 0xF#4, key := 0x0#4 } true 0x43FF#16 = some .writeProtect ∧
    refFault { big with mprotEn := false } .cpu { kind := .oper, group := 0xF#4, key := 0x0#4 } true 0x2000#16 =
      some .writeProtect ∧
    refFault big .cpu { kind := .oper, group := 0xF#4, key := 0x0#4 } true 0x3000#16 = some .illegalAddress ∧
    refFault { big with parityBad := [0x2000] } .cpu { kind := .oper, group := 0xF#4, key := 0x0#4 } false 0x2000#16 =
      some .parity ∧
    refFault big .cpu { kind := .oper, group := 0xF#4, key := 0x0#4 } true 0x4400#16 = none := by decide +kernel

/-- A bit number in a register with its upper bits set, the word by both address modes, and a device that writes it between
the read and the write. -/
theorem witness_BitSetAndClear :
    (3 : BitNo).val = ((small 0 [(1, 0xFFF3)] []).reg 1).toNat % 16 ∧
    (Memory.wf ready.mem = true ∧ gives (load 0x2000#16 ready) 0x4000 ready = true ∧ turns ready ready = true ∧
      Writable ready 0x2000#16 ∧ 0x2000#16 = daLong 5 0x0000#16 ready ∧
      gives (daIndirect 0 0x2010#16 ready) 0x2000 ready = true) ∧
    (let u := { big with env := [[.device (.unmapped 0x02000#20) (.write 0x0001#16)]] }
     gives (load 0x2000#16 { u with env := [] :: u.env }) 0x0500 u = true ∧
       turns u (physWrite big 0x02000#20 0x0001#16) = true ∧ Writable (physWrite big 0x02000#20 0x0001#16) 0x2000#16) := by
  unfold Writable
  decide +kernel

/-- What the device wrote between the read and the write of SB is lost; TSB lets nothing in between (20_memory R228). -/
theorem test_between_read_and_write :
    (let s := { big with env := [[], [.device (.unmapped 0x02000#20) (.write 0x0001#16)]] }
     let t := after (exec (.sb 0 0 0x2000#16) s)
     let u := after (exec (.tsb 0 0 0x2000#16) s)
     wordAt t 0x2000 == 0x8500 && t.env == [] && wordAt u 0x2000 == 0x8500 && u.env.length == 1) = true := by decide +kernel

/-- A tick between the two commands of one VIO: OTA with FFFF and then ITA, which reads 0000 (60_exceptions R818). -/
theorem test_tick_inside_vio :
    (let s := { small 0 [(1, 0x4000)] [(0x1000, 0x400A), (0x1001, 0xA000), (0x1002, 0xFFFF)] with
        env := [[], [], [], [.tickA]] }
     let t := after (exec (.vio 1 0 0x1000#16) s)
     wordAt t 0x1003 == 0x0000 && t.pi.toNat == 0x0100) = true := by decide +kernel

/-- A system reset before the third word of STM: the two words before it stay stored, execution goes on at 0
(70_reset_and_hazards R840). -/
theorem test_reset_inside_store_multiple :
    (let s := { small 0 [(0, 7), (1, 8), (2, 9)] [(0x0100, 0x9920), (0x0101, 0x2000)] with
        env := [[], [], [], [], [.systemReset]] }
     let t := after (step s)
     wordAt t 0x2000 == 7 && wordAt t 0x2001 == 8 && wordAt t 0x2002 == 0 && t.ic.toNat == 0) = true := by decide +kernel

/-- A zero and a one bit for each test. -/
theorem witness_BitTestsSetStatus :
    (let d := 0x4000#16
     gives (load (daLong 0 0x2000#16 ready) ready) 0x4000 ready = true ∧ bitAt d 1 = true ∧ bitAt d 0 = false ∧
       gives (daIndirect 0 0x2010#16 ready) 0x2000 ready = true ∧ Memory.wf ready.mem = true ∧
       Writable ready (daLong 0 0x2000#16 ready) ∧ (0 : BitNo).val = (ready.reg 5).toNat % 16) := by
  unfold Writable
  decide +kernel

theorem witness_ImmediateShiftsPutShiftedValue : (1 ≤ 1 ∧ 1 ≤ 16) ∧ 1 ≤ 16 ∧ 16 ≤ 16 := by decide

/-- The counts at and past each limit, and -32768. -/
theorem witness_RegisterCountShiftsPutShiftedValue :
    (let n : Nat → Int := fun w => ((small 0 [(2, w)] []).reg 2).toInt
     n 0xFFF0 = -16 ∧ n 0x0010 = 16 ∧ n 0xFFE0 = -32 ∧ n 0x0020 = 32 ∧ n 0xFFEF < -16 ∧ 16 < n 0x0011 ∧ n 0xFFDF < -32 ∧
       32 < n 0x0021 ∧ n 0x8000 < -32) := by decide +kernel

/-- Jumps taken and not taken, and a readable pointer. -/
theorem witness_ConditionalJumpsFollowMask :
    (∃ k, (0x2#4).getLsbD k = true ∧ (csOf 0x2000#16).getLsbD k = true) ∧
    (¬(0x4#4 = 0x7#4 ∨ 0x4#4 = 0xF#4) ∧ ∀ k, k < 4 → ¬((0x4#4).getLsbD k = true ∧ (csOf 0x2000#16).getLsbD k = true)) ∧
    gives (daIndirect 0 0x2010#16 ready) 0x2000 ready = true ∧ QuietFor 1 ready := by
  refine ⟨⟨1, by decide⟩, by decide, by decide +kernel, ?_⟩
  unfold QuietFor
  decide +kernel

/-- CS for each branch, a stack that can be written (SJS) and read (URS). -/
theorem witness_BranchesAndCallsSetCounter :
    (csOf 0x2000#16).toNat % 8 = 2 ∧ (csOf 0x9000#16).toNat % 8 = 1 ∧ (csOf 0xC000#16).toNat % 8 = 4 ∧
      (csOf 0x8000#16).toNat % 8 = 0 ∧ Memory.wf ready.mem = true ∧ turns ready ready = true ∧
      Writable ready (ready.reg 15 - 1) ∧ gives (load (ready.reg 15) ready) 0x0011 ready = true ∧
      Writable ready (ready.reg 13 - 1) := by
  unfold Writable
  decide +kernel

/-- One, two and three words by every address mode. -/
theorem witness_LoadsPutOperandAndStatus :
    gives (load (daLong 0 0x2000#16 ready) ready) 0x4000 ready = true ∧ gives (load (daBase 12 0x02#8 ready) ready) 0x8000 ready = true ∧
      gives (load (daBaseIndexed 12 1 ready) ready) 0x0003 ready = true ∧ gives (daIndirect 0 0x2010#16 ready) 0x2000 ready = true ∧
      gives (load2 (daLong 0 0x2000#16 ready) ready) 0x40000003 ready = true ∧
      gives (load2 (daBase 12 0x01#8 ready) ready) 0x00038000 ready = true ∧
      gives (load2 (daBaseIndexed 12 0 ready) ready) 0x40000003 ready = true ∧
      gives (load3 (daLong 0 0x2000#16 ready) ready) 0x400000038000 ready = true ∧
      gives (load3 (daLong 0 0xFFFF#16 ready) ready) 0 ready = true := by decide +kernel

/-- LM of 16 registers, and POPM of R14, R15, R0. -/
theorem witness_MultipleLoadsPutRegisters :
    QuietFor 16 ready ∧
    (∀ k, k ≤ (15 : Fin 16).val → faults (readNow (operAccess ready) (daLong 0 0x3000#16 ready + BitVec.ofNat 16 k) ready) = false) ∧
    ∀ r : Reg, r ≠ 15 → (r - 14).val ≤ ((0 : Reg) - 14).val →
      faults (readNow (operAccess ready) (ready.reg 15 + BitVec.ofNat 16 (r - 14).val) ready) = false := by
  unfold QuietFor
  decide +kernel

/-- One and sixteen words, over the end of the address space too, and an indirect address. -/
theorem witness_StoresPutWordsInMemory :
    Memory.wf ready.mem = true ∧ turns ready ready = true ∧ QuietFor 16 ready ∧
      WritableWords ready (daLong 0 0xFFFF#16 ready) 16 ∧
      WritableWords ready (daBase 12 0xFF#8 ready) 2 ∧ WritableWords ready (daBaseIndexed 12 5 ready) 2 ∧
      gives (daIndirect 0 0x2010#16 ready) 0x2000 ready = true ∧ WritableWords ready 0x2000#16 2 := by
  unfold WritableWords Writable QuietFor
  decide +kernel

theorem witness_PartialStoresMergeIntoWord :
    Memory.wf ready.mem = true ∧ gives (load 0x2000#16 ready) 0x4000 ready = true ∧ turns ready ready = true ∧
      Writable ready 0x2000#16 ∧ 0x2000#16 = daLong 0 0x2000#16 ready ∧
      gives (daIndirect 0 0x2010#16 ready) 0x2000 ready = true := by
  unfold Writable
  decide +kernel

/-- R14 to R2, R15 among them, and a stack that wraps; an absent second word. -/
theorem witness_PushMultipleStoresRegisters :
    Memory.wf ready.mem = true ∧ QuietFor 16 ready ∧
      WritableWords ready (ready.reg 15 - BitVec.ofNat 16 (((2 : Reg) - 14).val + 1)) (((2 : Reg) - 14).val + 1) ∧
      WritableWords (ready.setReg 15 0x0000#16) (0x0000#16 - BitVec.ofNat 16 16) 16 ∧
      (let s := big.setReg 15 0x4401#16
       let b := { s with cfg := { s.cfg with absent := [(0x43FF, 1)] }, mprot := Vector.replicate 128 0x0000#16 }
       Memory.wf b.mem = true ∧ WritableWords b (b.reg 15 - BitVec.ofNat 16 1) 1 ∧
         refFault b .cpu (operAccess b) true (b.reg 15 - BitVec.ofNat 16 (1 + 1)) = some .illegalAddress) := by
  unfold WritableWords Writable QuietFor
  decide +kernel

/-- A count of zero; a count of one; the count register as a source. -/
theorem witness_MoveTransfersOneWord :
    (ready.reg (5 + 1) = 0x0000#16) ∧
    (ready.reg (2 + 1) ≠ 0x0000#16 ∧ Memory.wf ready.mem = true ∧ turns ready ready = true ∧ Writable ready (ready.reg 2) ∧
      gives (load (ready.reg 5) ready) 0x4000 ready = true ∧ gives (load (ready.reg 3) ready) 0 ready = true) := by
  unfold Writable
  decide +kernel

/-- Operands for the integer forms: word and double word by every address mode; overflow, a zero divisor. -/
theorem witness_integer_operands :
    gives (load (daLong 0 0x2000#16 ready) ready) 0x4000 ready = true ∧ gives (load (daBase 12 0x00#8 ready) ready) 0x4000 ready = true ∧
      gives (load (daBaseIndexed 12 1 ready) ready) 0x0003 ready = true ∧
      gives (load2 (daLong 0 0x2001#16 ready) ready) 0x00038000 ready = true ∧
      gives (load (daLong 0 0x2003#16 ready) ready) 0 ready = true ∧ gives (load2 (daLong 0 0x2003#16 ready) ready) 0 ready = true := by
  decide +kernel

/-- INCM and DECM by 1 and by 16. -/
theorem witness_MemoryIncrementAndDecrement :
    (1 ≤ 1 ∧ 16 ≤ 16) ∧ Memory.wf ready.mem = true ∧ gives (load (daLong 0 0x2002#16 ready) ready) 0x8000 ready = true ∧
      turns ready ready = true ∧ Writable ready (daLong 0 0x2002#16 ready) := by
  unfold Writable
  decide +kernel

/-- Floating point operands that are good, and ones that are not, in registers and in memory (1.0, 0, an unnormalized one). -/
theorem witness_float_operands :
    (GoodFloat 24 (unpack32 (ready.pair 0)) ∧ GoodFloat 24 (unpack32 (ready.pair 6)) ∧
      ¬GoodFloat 24 (unpack32 0x00010000#32) ∧ ¬GoodFloat 24 (unpack32 0x00000001#32) ∧
      GoodFloat 24 (unpack32 0x40000003#32)) ∧
    (gives (load2 (daLong 0 0x2000#16 ready) ready) 0x40000003 ready = true ∧
      gives (load2 (daBase 12 0x00#8 ready) ready) 0x40000003 ready = true ∧
      gives (load2 (daBaseIndexed 12 0 ready) ready) 0x40000003 ready = true ∧
      gives (load2 (daLong 0 0x2001#16 ready) ready) 0x00038000 ready = true) := by
  unfold GoodFloat Normalized
  decide +kernel

/-- The same for 48 bits. -/
theorem witness_extended_float_operands :
    GoodFloat 40 (unpack48 (ready.triple 0)) ∧ GoodFloat 40 (unpack48 0x400000038000#48) ∧
      ¬GoodFloat 40 (unpack48 0x000000000001#48) ∧ gives (load3 (daLong 0 0x2000#16 ready) ready) 0x400000038000 ready = true := by
  unfold GoodFloat Normalized
  decide +kernel

/-- The operands at the limits: -1.0 times 2^127, the smallest positive number, exponents 15, 16, 31 and 32. -/
theorem witness_FloatMagnitude_and_FixAndFloatConvert :
    ((unpack32 0x8000007F#32).m = -(2 : Int) ^ 23 ∧ (unpack32 0x8000007F#32).e = 127) ∧
    ((unpack32 0x40000080#32).m = (2 : Int) ^ 22 ∧ (unpack32 0x40000080#32).e = -128) ∧
    ((unpack32 0x4000000F#32).e ≤ 15 ∧ 15 < (unpack32 0x40000010#32).e) ∧
    ((unpack48 0x4000001F0000#48).e ≤ 31 ∧ 31 < (unpack48 0x400000200000#48).e) ∧
    (GoodFloat 24 (unpack32 0x8000007F#32) ∧ GoodFloat 24 (unpack32 0x40000080#32) ∧ GoodFloat 24 (unpack32 0x40000010#32) ∧
      GoodFloat 40 (unpack48 0x400000200000#48)) := by
  unfold GoodFloat Normalized
  decide +kernel

/-- Limits of CBL in memory. -/
theorem witness_ComparesOrderIntegers :
    gives (load (daLong 0 0x2001#16 ready) ready) 0x0003 ready = true ∧
      gives (load (daLong 0 0x2001#16 ready + 1) ready) 0x8000 ready = true := by decide +kernel

/-- A console connected and none; a function that is defined, with its two further words readable, and one that is not; a
further word that cannot be fetched. -/
theorem witness_NopBreakpointAndUserFunction :
    (big.cfg.console = true ∧ big.console.connected = true) ∧ ready.cfg.console = false ∧
      big.cfg.bifSet.lookup 0x01#8 = some 2 ∧ big.cfg.bifSet.lookup 0x02#8 = none ∧ QuietFor 2 big ∧
      (match fetchWords 2 big with
        | .ok r => decide (r = ([0x1111#16, 0x2222#16], { big with ic := 0x0002#16 }))
        | .error _ => false) = true ∧
      (let s := { big with ic := 0x1000#16 }
       faults (readNow (fetchAccess s) s.ic { s with ic := s.ic + 1 }) = true ∧ faults (fetchWords 2 s) = true) := by
  unfold QuietFor
  decide +kernel

/-- BIF of the function 01 with its two further words: the function sees IC past them and its state is what is left. -/
theorem test_user_function :
    ∃ u : State, u.ic = 0x0002#16 ∧
      exec (.bif 0x01#8) big = .next (userResult u (Config.userFunction 0x01#8 [0x1111#16, 0x2222#16] u)) :=
  ⟨{ big with ic := 0x0002#16 }, rfl, rfl⟩

/-- PS = 0; the command words by base and by index; RPI of 1 and 0; both kinds of address state. -/
theorem witness_XioMandatoryOutputs :
    psOf ready.sw = 0x0#4 ∧ daLong 0 0x2000#16 ready = 0x2000#16 ∧ daLong 5 0x0005#16 ready = 0x2005#16 ∧
      ready.enblPending = false ∧ (1 : BitNo).val = (0xFFF1#16).toNat % 16 ∧ (0 : BitNo).val = (0x0010#16).toNat % 16 ∧
      groupImplemented ready.cfg (asOf 0xFFF0#16) = true ∧ groupImplemented ready.cfg (asOf 0x0001#16) = false := by
  decide +kernel

/-- The options, and the limits of the command ranges. -/
theorem witness_XioInputs_and_XioOptionalOutputs :
    psOf big.sw = 0x0#4 ∧
    (big.cfg.timers = true ∧ big.cfg.ioic = true ∧ big.cfg.discretes = true ∧ big.cfg.tpio = true ∧ big.cfg.mfsr.isSome = true ∧
      big.cfg.console = true ∧ big.cfg.memProtectRam = true ∧ big.cfg.rom.isSome = true ∧ big.cfg.dma = true ∧
      big.cfg.npuDiscrete = true ∧ big.cfg.go = true ∧ big.console.connected = true) ∧
    (daLong 0 0x8000#16 big = 0x8000#16 ∧ daLong 0 0x83FF#16 big = 0x83FF#16 ∧ daLong 0 0x03FF#16 big = 0x03FF#16) ∧
    ((daLong 0 0xD07F#16 big).toNat = 0xD000 + (127 : Fin 128).val ∧ (daLong 0 0x507F#16 big).toNat ≤ 0x507F) ∧
    (big.cfg.expanded = some { groups := .sixteen, lockKey := true } ∧ (0xF#4).toNat < GroupCount.sixteen.toNat ∧
      daLong 0 0xD1FF#16 big = 0xD1#8 ++ 0xF#4 ++ 0xF#4 ∧ daLong 0 0x5200#16 big = 0x52#8 ++ 0x0#4 ++ 0x0#4) ∧
    (0x0400#16 ∈ big.cfg.spareXio ∧ 0xFF00#16 ∈ big.cfg.spareXio ∧ 0x04 ≤ (daLong 0 0x0400#16 big).toNat / 256 ∧
      0xD3 ≤ (daLong 0 0xFF00#16 big).toNat / 256) ∧
    ({ big with console := { big.console with connected := false } } : State).cfg.console = true := by
  decide +kernel

/-- Command words next to the legal ones. -/
theorem witness_StandardCommandWordsAndIllegalOnes :
    psOf ready.sw = 0x0#4 ∧ ready.cfg = Config.standard ∧
    ([0x0400#16, 0x7FFF#16, 0x8400#16, 0x2006#16, 0x4000#16, 0x400B#16, 0xA001#16, 0xC000#16, 0xD000#16, 0x5100#16, 0xFFFF#16].all
      fun c => !(decide (c.toNat ≤ 0x03FF) || (decide (0x8000 ≤ c.toNat) && decide (c.toNat ≤ 0x83FF))) &&
        !([0x2000#16, 0x2001#16, 0x2002#16, 0x2003#16, 0x2004#16, 0x2005#16, 0x200E#16, 0xA000#16, 0xA004#16, 0xA00E#16,
          0xA00F#16, 0x4008#16, 0x4009#16, 0x400A#16, 0x400C#16, 0x400D#16, 0x400E#16, 0xC00A#16,
          0xC00E#16].contains c)) = true := by decide +kernel

/-- Illegal words of other machines: page registers of a group that is not implemented, past the end of the memory protect
RAM, a spare word that the application does not implement, an option that is absent. -/
theorem test_illegal_commands_with_options :
    ((decodeIo { full with expanded := some { groups := .two, lockKey := false } } 0x5120#16).isNone &&
      (decodeIo full 0x5080#16).isNone && (decodeIo full 0xD0FF#16).isNone && (decodeIo full 0x0401#16).isNone &&
      (decodeIo { full with timers := false } 0x4008#16).isNone && (decodeIo { full with go := false } 0x400B#16).isNone &&
      (decodeIo full 0x5520#16).isNone) = true := by decide +kernel

theorem witness_EnableTakesEffectOneInstructionLater :
    (psOf ready.sw = 0x0#4 ∧ ready.enblPending = false ∧ ready.halted = false ∧ QuietFor 1 ready ∧
      daLong 0 0x2002#16 ready = 0x2002#16 ∧ ∀ n, eligible ready n = false) ∧
    (let u := { ready with enblPending := true }
     turns u u = true ∧ u.enblPending = true ∧ u.enblIssued = false ∧ u.halted = false ∧
       ∀ n : BitNo, bitAt u.pi n = false) := by
  unfold QuietFor
  decide +kernel

/-- Tables of VIO: no bit; an output command by bit 0; an input command by bit 15; an illegal one; two bits. -/
def vectored (c0 vs r1 : Nat) : State := small 0 [(1, r1)] [(0x1000, c0), (0x1001, vs), (0x1002, 0x1234)]

theorem witness_VioPerformsSelectedCommand :
    (let s := vectored 0 0 0
     psOf s.sw = 0x0#4 ∧ gives (load (daLong 0 0x1000#16 s) s) 0 s = true ∧
       gives (load (daLong 0 0x1000#16 s + 1) s) 0 s = true) ∧
    (0x8000#16 = bitMask 0 ∧ decodeIo Config.standard (0x2000#16 + BitVec.ofNat 16 (0 : BitNo).val * 0x0005#16) =
        some (.out .smk) ∧
      gives (load (daLong 0 0x1000#16 (vectored 0x2000 0x8000 5) + 2) (vectored 0x2000 0x8000 5)) 0x1234
        (vectored 0x2000 0x8000 5) = true) ∧
    (0x0001#16 = bitMask 15 ∧ decodeIo Config.standard (0xA000#16 + BitVec.ofNat 16 (15 : BitNo).val * 0x0001#16) =
        some (.inp .rcfr) ∧
      Memory.wf (vectored 0xA000 1 1).mem = true ∧ QuietFor 2 (vectored 0xA000 1 1) ∧
      Writable (vectored 0xA000 1 1) (daLong 0 0x1000#16 (vectored 0xA000 1 1) + 2)) ∧
    decodeIo Config.standard (0x2006#16 + BitVec.ofNat 16 (0 : BitNo).val * 0x0000#16) = none ∧
    (let s := vectored 0x2000 0xC000 6
     gives (load (daLong 0 0x1000#16 s + 1) s) 0xC000 s = true ∧
       decodeIo Config.standard (0x2000#16 + BitVec.ofNat 16 (1 : BitNo).val * 0x0006#16) = none) := by
  unfold Writable QuietFor
  decide +kernel

/-- Two bits, the second command illegal: the first one, SMK, stays done (40_io R380). -/
theorem test_vio_illegal_second :
    (let t := after (exec (.vio 1 0 0x1000#16) (vectored 0x2000 0xC000 6))
     t.mask.toNat == 0x1234 && t.ft.toNat == 0x0400 && t.pi.toNat == 0x4000) = true := by decide +kernel

end Sys2Proof.Tests

end
end

/-! # The state, the step and the reset (10_state)

What the decoder takes from the second word, the outcome of a fetch, the boundary without an interrupt and the values after
a reset. -/

namespace Sys2Proof

/-! ## What the second word of an instruction decides (30_encoding R259, R260) -/

/-- Two answers of the decoder that differ at most in the operand word of a two-word instruction. -/
def SameButOperandWord : Except DecodeError Instr → Except DecodeError Instr → Prop
  | .ok i, .ok j => i = j ∨ (i.words = 2 ∧ j.words = 2)
  | .error _, .error _ => True
  | _, _ => False

theorem SameButOperandWord.refl (x : Except DecodeError Instr) : SameButOperandWord x x := by
  cases x with
  | error e => trivial
  | ok i => exact .inl rfl

theorem SameButOperandWord.of_two_words {i j : Instr} (hi : i.words = 2) (hj : j.words = 2) :
    SameButOperandWord (.ok i) (.ok j) := .inr ⟨hi, hj⟩

theorem decodeImmediate_sameButOperandWord (w0 w1 w : Word) :
    SameButOperandWord (decodeImmediate w0 w1) (decodeImmediate w0 w) := by
  unfold decodeImmediate
  split <;> first | exact .refl _ | exact .of_two_words rfl rfl

theorem decodeColumn4_sameButOperandWord (w0 w1 w : Word) :
    SameButOperandWord (decodeColumn4 w0 w1) (decodeColumn4 w0 w) := by
  unfold decodeColumn4
  split
  case h_7 => exact decodeImmediate_sameButOperandWord w0 w1 w
  all_goals first | exact .refl _ | exact .of_two_words rfl rfl

theorem decodeColumn5_sameButOperandWord (w0 w1 w : Word) :
    SameButOperandWord (decodeColumn5 w0 w1) (decodeColumn5 w0 w) := by
  unfold decodeColumn5
  split <;> first | exact .refl _ | exact .of_two_words rfl rfl

theorem decodeColumn7_sameButOperandWord (w0 w1 w : Word) :
    SameButOperandWord (decodeColumn7 w0 w1) (decodeColumn7 w0 w) := by
  unfold decodeColumn7
  split
  case h_13 | h_14 => split <;> first | exact .refl _ | exact .of_two_words rfl rfl
  all_goals first | exact .refl _ | exact .of_two_words rfl rfl

theorem decodeColumn8_sameButOperandWord (w0 w1 w : Word) :
    SameButOperandWord (decodeColumn8 w0 w1) (decodeColumn8 w0 w) := by
  unfold decodeColumn8
  split <;> first | exact .refl _ | exact .of_two_words rfl rfl

theorem decodeColumn9_sameButOperandWord (w0 w1 w : Word) :
    SameButOperandWord (decodeColumn9 w0 w1) (decodeColumn9 w0 w) := by
  unfold decodeColumn9
  split <;> first | exact .refl _ | exact .of_two_words rfl rfl

theorem decodeColumnA_sameButOperandWord (w0 w1 w : Word) :
    SameButOperandWord (decodeColumnA w0 w1) (decodeColumnA w0 w) := by
  unfold decodeColumnA
  split <;> first | exact .refl _ | exact .of_two_words rfl rfl

theorem decodeColumnB_sameButOperandWord (w0 w1 w : Word) :
    SameButOperandWord (decodeColumnB w0 w1) (decodeColumnB w0 w) := by
  unfold decodeColumnB
  split <;> first | exact .refl _ | exact .of_two_words rfl rfl

theorem decodeColumnC_sameButOperandWord (w0 w1 w : Word) :
    SameButOperandWord (decodeColumnC w0 w1) (decodeColumnC w0 w) := by
  unfold decodeColumnC
  split <;> first | exact .refl _ | exact .of_two_words rfl rfl

theorem decodeColumnD_sameButOperandWord (w0 w1 w : Word) :
    SameButOperandWord (decodeColumnD w0 w1) (decodeColumnD w0 w) := by
  unfold decodeColumnD
  split <;> first | exact .refl _ | exact .of_two_words rfl rfl

theorem decodeColumnE_sameButOperandWord (w0 w1 w : Word) :
    SameButOperandWord (decodeColumnE w0 w1) (decodeColumnE w0 w) := by
  unfold decodeColumnE
  split <;> first | exact .refl _ | exact .of_two_words rfl rfl

theorem decodeColumnF_sameButOperandWord (w0 w1 w : Word) :
    SameButOperandWord (decodeColumnF w0 w1) (decodeColumnF w0 w) := by
  unfold decodeColumnF
  split <;> first | exact .refl _ | exact .of_two_words rfl rfl

/-- The second word decides the operand word of a two-word instruction and nothing else. -/
theorem decode_sameButOperandWord (w0 w1 w : Word) : SameButOperandWord (decode w0 w1) (decode w0 w) := by
  unfold decode
  split
  case h_5 => exact decodeColumn4_sameButOperandWord w0 w1 w
  case h_6 => exact decodeColumn5_sameButOperandWord w0 w1 w
  case h_8 => exact decodeColumn7_sameButOperandWord w0 w1 w
  case h_9 => exact decodeColumn8_sameButOperandWord w0 w1 w
  case h_10 => exact decodeColumn9_sameButOperandWord w0 w1 w
  case h_11 => exact decodeColumnA_sameButOperandWord w0 w1 w
  case h_12 => exact decodeColumnB_sameButOperandWord w0 w1 w
  case h_13 => exact decodeColumnC_sameButOperandWord w0 w1 w
  case h_14 => exact decodeColumnD_sameButOperandWord w0 w1 w
  case h_15 => exact decodeColumnE_sameButOperandWord w0 w1 w
  case h_16 => exact decodeColumnF_sameButOperandWord w0 w1 w
  all_goals exact .refl _

/-- With another second word a first word still decodes, to an instruction of the same length. -/
theorem decode_second_word {w0 w1 : Word} {i : Instr} (h : decode w0 w1 = .ok i) (w : Word) :
    ∃ j, decode w0 w = .ok j ∧ (i = j ∨ (i.words = 2 ∧ j.words = 2)) := by
  have hs := decode_sameButOperandWord w0 w1 w
  rw [h] at hs
  cases hj : decode w0 w with
  | error e => rw [hj] at hs; exact hs.elim
  | ok j => rw [hj] at hs; exact ⟨j, rfl, hs⟩

/-- The length of what a first word begins is that of the instruction it decodes to. -/
theorem lengthOf_of_decode {w0 w1 : Word} {i : Instr} (h : decode w0 w1 = .ok i) : lengthOf w0 = i.words := by
  obtain ⟨j, hj, rfl | ⟨hi, hj2⟩⟩ := decode_second_word h 0x0000#16
  · simp [lengthOf, hj]
  · simp [lengthOf, hj, hi, hj2]

/-- A one-word instruction is decoded from its first word alone. -/
theorem decode_of_one_word {w0 w1 : Word} {i : Instr} (h : decode w0 w1 = .ok i) (hi : i.words = 1) (w : Word) :
    decode w0 w = .ok i := by
  obtain ⟨j, hj, rfl | ⟨hi2, _⟩⟩ := decode_second_word h w
  · exact hj
  · omega

end Sys2Proof

namespace Sys2Proof.Machine

/-! ## Fetching an instruction (30_encoding R259; 20_memory R222, R229) -/

/-- A word that can be read is fetched after its turn of the environment. -/
theorem fetchNext_of_ok {s u : State} {w : Word} (ht : takeTurn s = .ok u) (h : readNow (fetchAccess u) u.ic u = .ok w) :
    fetchNext s = .ok (w, advance 1 u) := by
  simp [fetchNext, ht, fetchNow_of_ok h]

/-- A first word of a one-word instruction is the whole fetch. -/
theorem fetch_of_one_word {s : State} {w0 w1 : Word} {i : Instr} (hr : readNow (fetchAccess s) s.ic s = .ok w0)
    (hd : decode w0 w1 = .ok i) (hi : i.words = 1) : fetch s = .ok (i, advance 1 s) := by
  simp [fetch, fetchNow_of_ok hr, lengthOf_of_decode hd, hi, decoded, decode_of_one_word hd hi]

/-- The second word of a two-word instruction is fetched after a turn of the environment. -/
theorem fetch_of_two_words {s v : State} {w0 w1 : Word} {i : Instr} (hr : readNow (fetchAccess s) s.ic s = .ok w0)
    (hd : decode w0 w1 = .ok i) (hi : i.words = 2) (ht : takeTurn (advance 1 s) = .ok v)
    (hr' : readNow (fetchAccess v) v.ic v = .ok w1) : fetch s = .ok (i, advance 1 v) := by
  simp [fetch, fetchNow_of_ok hr, lengthOf_of_decode hd, hi, fetchNext_of_ok ht hr', decoded, hd]

/-! ## The step -/

/-- A turn of the environment that ends the step ends it. -/
theorem step_of_turn_error {s : State} {o : Out} (h : takeTurn s = .error o) : step s = o := by simp [step, h]

/-- A halted processor takes its turn of the environment and nothing else. -/
theorem step_of_halted {s u : State} (h : takeTurn s = .ok u) (hh : u.halted = true) : step s = .next u := by
  simp [step, h, hh]

/-- A fetched instruction is executed and followed by the boundary. -/
theorem runInstruction_of_fetch {s t : State} {i : Instr} (h : fetch s = .ok (i, t)) :
    runInstruction s = atBoundary (exec i t) := by simp [runInstruction, h]

/-- Settles O5: the decoder finds the length of the instruction in the first word, whatever word it is given as the second. -/
theorem stepRunsDecodedInstruction : Obligations.StepRunsDecodedInstruction := by
  unfold Obligations.StepRunsDecodedInstruction
  refine fun s => ⟨fun o h => step_of_turn_error h, fun u w0 w1 i ht hh hr hd => ⟨fun hi => ?_, fun hi v hv hr' => ?_⟩⟩
  · rw [step_of_running ht hh, runInstruction_of_fetch (fetch_of_one_word hr hd hi)]
    rfl
  · have hic : v.ic = u.ic + 1 := by rw [takeTurn_keeps hv]
    have hadv : advance 1 v = { v with ic := u.ic + 2 } := by
      simp [advance, hic, BitVec.add_assoc]
    rw [step_of_running ht hh, runInstruction_of_fetch (fetch_of_two_words hr hd hi hv (hic ▸ hr')), hadv]
    rfl

/-! ## The boundary without an interrupt (60_exceptions R765, R770, R771) -/

/-- An ENBL of an earlier instruction takes effect. -/
theorem delayedEnable_of_pending {s : State} (hp : s.enblPending = true) (hi : s.enblIssued = false) :
    delayedEnable s = { s with ie := true, enblPending := false } := by simp [delayedEnable, hp, hi]

/-- An ENBL of the instruction that ends now stays pending. -/
theorem delayedEnable_of_issued {s : State} (hi : s.enblIssued = true) :
    delayedEnable s = { s with enblIssued := false } := by simp [delayedEnable, hi]

/-- Without a pending ENBL only the mark goes. -/
theorem delayedEnable_of_not_pending {s : State} (hp : s.enblPending = false) :
    delayedEnable s = { s with enblIssued := false } := by simp [delayedEnable, hp]

@[simp] theorem delayedEnable_halted (s : State) : (delayedEnable s).halted = s.halted := by
  unfold delayedEnable
  split <;> rfl

@[simp] theorem delayedEnable_pi (s : State) : (delayedEnable s).pi = s.pi := by
  unfold delayedEnable
  split <;> rfl

/-- Only a pending interrupt is eligible. -/
theorem eligible_of_not_pending {s : State} {n : BitNo} (h : bitAt s.pi n = false) : eligible s n = false := by
  simp [eligible, h]

/-- With no eligible interrupt none is taken. -/
theorem nextInterrupt_of_none_eligible {s : State} (h : ∀ n, eligible s n = false) : nextInterrupt s = none := by
  simp [nextInterrupt, h]

/-- A boundary after which no interrupt is taken ends the delays of ENBL and SPI and does nothing else. -/
theorem boundary_of_none_taken {s u : State} (ht : takeTurn s = .ok u)
    (h : u.halted = true ∨ ∀ n, eligible (delayedEnable u) n = false) :
    boundary s = .next { delayedEnable u with piHold := 0x0000#16 } := by
  rcases h with hh | he
  · simp [boundary, ht, recognize, hh]
  · simp [boundary, ht, recognize, nextInterrupt_of_none_eligible he]

/-- Settles O7: HALTED is tested before the fetch in the step and before the recognition in the boundary. -/
theorem haltedStepTakesEventsOnly : Obligations.HaltedStepTakesEventsOnly := by
  unfold Obligations.HaltedStepTakesEventsOnly
  exact fun s u ht hh => ⟨step_of_halted ht hh, boundary_of_none_taken ht (.inl hh)⟩

/-! ## ENBL (10_state R161, 40_io R313) -/

/-- The command word of ENBL, in every configuration. -/
theorem decodeIo_enbl (k : Config) : decodeIo k 0x2002#16 = some (.out .enbl) := rfl

/-- XIO with the command word of ENBL, while no enable is pending, makes the enable pending and marks it as just issued. -/
theorem exec_xio_enbl {s : State} {ra rx : Reg} {addr : Word} (hps : psOf s.sw = 0x0#4) (hp : s.enblPending = false)
    (hc : daLong rx addr s = 0x2002#16) :
    exec (.xio ra rx addr) s = .next { s with enblPending := true, enblIssued := true } := by
  change privileged s (.next (performIo ra (daLong rx addr s) s)) = _
  rw [privileged_of_zero _ hps, hc]
  simp [performIo, decodeIo_enbl, outputEffect, enableInterrupts, hp]

/-- Settles O59: the mark that ENBL leaves lets the first boundary pass it by, and the second boundary finds it gone. -/
theorem enableTakesEffectOneInstructionLater : Obligations.EnableTakesEffectOneInstructionLater := by
  unfold Obligations.EnableTakesEffectOneInstructionLater
  intro s ra rx addr hps hp _ hq hc hne
  refine ⟨_, exec_xio_enbl hps hp hc, ?_, fun v u ht hpu hiu _ hpi => ?_⟩
  · have ht : takeTurn { s with enblPending := true, enblIssued := true } =
        .ok (afterTurns 1 { s with enblPending := true, enblIssued := true }) := takeTurn_of_quiet (n := 0) hq
    rw [boundary_of_none_taken ht (.inr ?_), delayedEnable_of_issued rfl]
    · rfl
    · rw [delayedEnable_of_issued rfl]
      exact hne
  · rw [boundary_of_none_taken ht (.inr fun n => eligible_of_not_pending ?_), delayedEnable_of_pending hpu hiu]
    rw [delayedEnable_pi]
    exact hpi n

/-! ## The values after a reset (10_state R165) -/

theorem identitySet_get (y : BitVec 4) : identitySet.get y.toFin = y.zeroExtend 16 := by
  revert y
  decide

/-- With the page file of the reset every page register names its own page. -/
theorem pageRegister_of_identityPages {s : State} (h : s.pages = identityPages) (kind : RefKind) (g y : BitVec 4) :
    pageRegister s kind g y = y.zeroExtend 16 := by
  have hg : s.pages.get g.toFin = { instr := identitySet, oper := identitySet } := by
    rw [h, identityPages, Vector.get_replicate]
  cases kind <;> simp [pageRegister, hg, PageGroup.setOf, identitySet_get]

/-- The page that an address names and the word within it make up the address. -/
theorem page_append_offset (l : Word) :
    ((l.extractLsb' 12 4).zeroExtend 16).extractLsb' 0 8 ++ l.extractLsb' 0 12 = l.zeroExtend 20 := by
  ext i hi
  simp only [BitVec.getElem_append, BitVec.getElem_extractLsb', BitVec.getLsbD_extractLsb', BitVec.getLsbD_setWidth,
    BitVec.getElem_setWidth, Nat.zero_add]
  split
  · rfl
  · rw [show 12 + (i - 12) = i by omega]
    by_cases hl : i < 16
    · simp [show i - 12 < 4 by omega, show i - 12 < 16 by omega]
    · simp [BitVec.getLsbD_of_ge l i (by omega)]

/-- With the page file of the reset logical and physical addresses agree. -/
theorem translate_of_identityPages {s : State} (h : s.pages = identityPages) (a : Access) (l : Word) :
    translate s a l = l.zeroExtend 20 := by
  have hp : selectedPage s a l = (l.extractLsb' 12 4).zeroExtend 16 := by
    unfold selectedPage
    split
    · exact pageRegister_of_identityPages h _ _ _
    · rfl
  unfold translate
  split
  · rfl
  · rw [hp, page_append_offset]

/-- The values of Table VI (10_state R165), as O12 lists them: the page file as the mapping it gives. -/
def HoldsTableVI (t : State) : Prop :=
  t.ic = 0x0000#16 ∧ t.sw = 0x0000#16 ∧ t.ft = 0x0000#16 ∧ t.pi = 0x0000#16 ∧ t.mask = 0x0000#16 ∧ t.ie = false ∧
    t.enblPending = false ∧ t.piHold = 0x0000#16 ∧ t.halted = false ∧ t.dout = 0x0000#16 ∧
    t.timers = { ta := 0x0000#16, tb := 0x0000#16, taRun := true, tbRun := true } ∧ t.romEn = true ∧ t.dmaEn = false ∧
    t.goRun = true ∧ t.mprotEn = false ∧ (∀ k, t.mprot.get k = 0x0000#16) ∧
    (∀ (kind : RefKind) (g y : BitVec 4), pageRegister t kind g y = y.zeroExtend 16) ∧
    ∀ (a : Access) (l : Word), translate t a l = l.zeroExtend 20

theorem resetWith_holdsTableVI (c : Config) : HoldsTableVI (State.resetWith c) :=
  ⟨rfl, rfl, rfl, rfl, rfl, rfl, rfl, rfl, rfl, rfl, rfl, rfl, rfl, rfl, rfl,
    fun _ => Vector.get_replicate .., pageRegister_of_identityPages rfl, translate_of_identityPages rfl⟩

/-- A reset during a run differs from the reset state in items that Table VI does not fix. -/
theorem resetEvent_holdsTableVI (mem : Memory) (npu : Bool) (s : State) : HoldsTableVI (resetEvent mem npu s) :=
  resetWith_holdsTableVI s.cfg

/-- Both kinds of reset are a `resetEvent`. -/
theorem applyEvent_of_isReset {e : Event} (h : e.isReset = true) (s : State) :
    ∃ mem npu, applyEvent e s = some (resetEvent mem npu s) := by
  cases e <;> simp only [Event.isReset, Bool.false_eq_true] at h
  case systemReset => exact ⟨_, _, rfl⟩
  case powerUp image => exact ⟨_, _, rfl⟩

/-- A reset at the head of a turn ends the step; the turn after it is empty and the rest of the turn comes then. -/
theorem takeTurn_of_reset {s t : State} {e : Event} {es : List Event} {later : List (List Event)}
    (he : s.env = (e :: es) :: later) (hr : e.isReset = true) (ha : applyEvent e { s with env := later } = some t) :
    takeTurn s = .error (.next { t with env := [] :: es :: t.env }) := by
  simp [takeTurn, he, applyEvents, ha, hr]

/-- The boundary that ends the step of a reset changes nothing. -/
theorem boundary_resetEvent (mem : Memory) (npu : Bool) (s : State) (turns : List (List Event)) :
    boundary { resetEvent mem npu s with env := [] :: turns } = .next { resetEvent mem npu s with env := turns } := by
  have ht : takeTurn { resetEvent mem npu s with env := [] :: turns } = .ok { resetEvent mem npu s with env := turns } :=
    takeTurn_of_empty rfl
  rw [boundary_of_none_taken ht (.inr fun n => eligible_of_not_pending ?_), delayedEnable_of_not_pending rfl]
  · rfl
  · rw [delayedEnable_pi]
    exact BitVec.getLsbD_zero

/-- Settles O12: both events of reset give a `resetEvent`, and no interrupt is pending at the boundary after it. -/
theorem resetHoldsTabulatedValues : Obligations.ResetHoldsTabulatedValues := by
  unfold Obligations.ResetHoldsTabulatedValues
  intro tabulated
  refine ⟨fun c => ⟨resetWith_holdsTableVI c, rfl⟩, fun s => ⟨?_, fun image => ?_, fun e es later he hreset => ?_⟩⟩
  · exact ⟨_, rfl, resetEvent_holdsTableVI s.mem s.npu s, rfl, rfl, rfl⟩
  · exact ⟨_, rfl, resetEvent_holdsTableVI (Memory.ofImage image) true s, rfl, rfl, rfl⟩
  · have hr : e.isReset = true := by rcases hreset with rfl | ⟨image, rfl⟩ <;> rfl
    obtain ⟨mem, npu, ha⟩ := applyEvent_of_isReset hr { s with env := later }
    exact ⟨_, ha, takeTurn_of_reset he hr ha, boundary_resetEvent mem npu _ _⟩

/-! ## The reset state is good -/

/-- Every configuration stores the identity mapping as it is. -/
theorem pageRegisterOk_identity (c : Config) (y : BitVec 4) : pageRegisterOk c (y.zeroExtend 16) = true := by
  have hmask : ∀ y : BitVec 4, y.zeroExtend 16 &&& 0x08FF#16 = y.zeroExtend 16 ∧
      y.zeroExtend 16 &&& 0xF8FF#16 = y.zeroExtend 16 := by decide
  unfold pageRegisterOk pageWord
  split
  · simpa using (hmask y).1
  · split
    · simpa using (hmask y).2
    · simpa using (hmask y).1

/-- Settles O10: the identity mapping sets no reserved bit of a page register. -/
theorem resetStateIsGood : Obligations.ResetStateIsGood := by
  unfold Obligations.ResetStateIsGood
  intro c
  have hpages : PagesOk (State.resetWith c) := fun kind g y => by
    rw [pageRegister_of_identityPages rfl]
    exact pageRegisterOk_identity c y
  exact ⟨rfl, hpages, BitVec.zero_and, rfl, rfl⟩

end Sys2Proof.Machine

/-! # The encoding (30_encoding)

The fields of a first word and the words made of them; both directions between the decoder and the encoder; the first
words that the decoder refuses; the derived addresses. -/

namespace Sys2Proof

/-- Settles O1, by running the decoder on the eleven words. -/
theorem decodeReadsSampleWords : Obligations.DecodeReadsSampleWords := by
  unfold Obligations.DecodeReadsSampleWords
  exact ⟨rfl, rfl, rfl, rfl, rfl, rfl, rfl, rfl, rfl, rfl, rfl⟩

/-! ## The fields of a first word as digits (30_encoding R251) -/

theorem opHigh_eq (w : Word) : opHigh w = w.toNat / 4096 := by
  rw [opHigh, BitVec.extractLsb'_toNat, Nat.shiftRight_eq_div_pow]
  omega

theorem opLow_eq (w : Word) : opLow w = w.toNat / 256 % 16 := by
  simp [opLow, BitVec.extractLsb'_toNat, Nat.shiftRight_eq_div_pow]

theorem gr1_val (w : Word) : (gr1 w).val = w.toNat / 16 % 16 := by
  simp [gr1, Nat.shiftRight_eq_div_pow]

theorem gr2_val (w : Word) : (gr2 w).val = w.toNat % 16 := by
  simp [gr2]

theorem lowByte_toNat (w : Word) : (lowByte w).toNat = w.toNat % 256 := by
  simp [lowByte, BitVec.extractLsb'_toNat]

/-- The two bits of the opcode that the Base Relative format keeps. -/
theorem baseOpcodeBits_toNat (w : Word) : (w.extractLsb' 10 2).toNat = w.toNat / 1024 % 4 := by
  simp [BitVec.extractLsb'_toNat, Nat.shiftRight_eq_div_pow]

/-- The two bits that name the base register (30_encoding R254). -/
theorem baseBits_toNat (w : Word) : (w.extractLsb' 8 2).toNat = w.toNat / 256 % 4 := by
  simp [BitVec.extractLsb'_toNat, Nat.shiftRight_eq_div_pow]

/-- The opcode byte and its two digits (30_encoding R261). -/
theorem opByte_digits (w : Word) : w.toNat / 256 = 16 * opHigh w + opLow w := by
  rw [opHigh_eq, opLow_eq]
  omega

/-! ## First words written from their fields (30_encoding R250 to R258) -/

/-- Joining two fields is a sum: the one on the left counts in units of the width of the one on the right. -/
theorem toNat_append_eq {v w : Nat} (x : BitVec v) (y : BitVec w) : (x ++ y).toNat = x.toNat * 2 ^ w + y.toNat := by
  rw [BitVec.toNat_append, ← Nat.shiftLeft_add_eq_or_of_lt y.isLt, Nat.shiftLeft_eq]

@[simp] theorem nibble_toNat (r : Fin 16) : (nibble r).toNat = r.val := rfl

/-- A word is what `pack` makes of its fields. -/
theorem pack_eq_iff {op : Byte} {a b : BitVec 4} {w : Word} :
    pack op a b = w ↔
      opHigh w = op.toNat / 16 ∧ opLow w = op.toNat % 16 ∧ (gr1 w).val = a.toNat ∧ (gr2 w).val = b.toNat := by
  rw [← BitVec.toNat_inj, pack, toNat_append_eq, toNat_append_eq, opHigh_eq, opLow_eq, gr1_val, gr2_val]
  omega

/-- The same for the formats with a low byte. -/
theorem packByte_eq_iff {op x : Byte} {w : Word} :
    packByte op x = w ↔ opHigh w = op.toNat / 16 ∧ opLow w = op.toNat % 16 ∧ lowByte w = x := by
  rw [← BitVec.toNat_inj, ← BitVec.toNat_inj, packByte, toNat_append_eq, opHigh_eq, opLow_eq, lowByte_toNat]
  omega

/-- The same for the Base Relative format, whose opcode ends inside the low digit of the opcode byte. -/
theorem packBase_eq_iff {op6 : BitVec 6} {br : Reg} {x : Byte} {w : Word} :
    packBase op6 br x = w ↔ opHigh w = op6.toNat / 4 ∧ (w.extractLsb' 10 2).toNat = op6.toNat % 4 ∧
      w.extractLsb' 8 2 = baseField br ∧ lowByte w = x := by
  rw [← BitVec.toNat_inj, ← BitVec.toNat_inj (x := lowByte w), ← BitVec.toNat_inj (x := w.extractLsb' 8 2), packBase,
    toNat_append_eq, toNat_append_eq, opHigh_eq, baseOpcodeBits_toNat, baseBits_toNat, lowByte_toNat]
  omega

/-- The same for the Base Relative Indexed format, which takes the opcode bytes 40 to 43. -/
theorem packIndexed_eq_iff {opex : BitVec 4} {br rx : Reg} {w : Word} :
    packIndexed opex br rx = w ↔ opHigh w = 4 ∧ opLow w < 4 ∧ w.extractLsb' 8 2 = baseField br ∧
      (gr1 w).val = opex.toNat ∧ gr2 w = rx := by
  rw [← BitVec.toNat_inj, ← Fin.val_inj, ← BitVec.toNat_inj (x := w.extractLsb' 8 2), packIndexed, toNat_append_eq,
    toNat_append_eq, toNat_append_eq, nibble_toNat, opHigh_eq, opLow_eq, baseBits_toNat, gr1_val, gr2_val,
    show (0x10#6).toNat = 16 from rfl]
  omega

/-! ## Operands that an encoding holds in another form -/

theorem baseOk_iff {br : Reg} : baseOk br = true ↔ 12 ≤ br.val := decide_eq_true_iff

theorem countOk_iff {n : Nat} : countOk n = true ↔ 1 ≤ n ∧ n ≤ 16 := by simp [countOk]

/-- A count of 1 to 16 survives being stored less one. -/
theorem lessOne_toNat_add_one {n : Nat} (h : countOk n = true) : (lessOne n).toNat + 1 = n := by
  rw [countOk_iff] at h
  rw [lessOne, BitVec.toNat_ofNat]
  omega

/-- A base register survives being stored less twelve. -/
theorem baseReg_of_baseField {br : Reg} {w : Word} (hw : w.extractLsb' 8 2 = baseField br) (h : baseOk br = true) :
    baseReg w = br := by
  rw [baseOk_iff] at h
  have hb : (baseField br).toNat = br.val - 12 := by
    rw [baseField, BitVec.toNat_ofNat]
    omega
  apply Fin.ext
  rw [baseReg, hw, hb, Fin.val_ofNat]
  omega

@[simp] theorem baseReg_val (w : Word) : (baseReg w).val = 12 + (w.extractLsb' 8 2).toNat := by
  rw [baseReg, Fin.val_ofNat]
  omega

@[simp] theorem baseOk_baseReg (w : Word) : baseOk (baseReg w) = true := by simp [baseOk_iff]

@[simp] theorem baseField_baseReg (w : Word) : baseField (baseReg w) = w.extractLsb' 8 2 := by
  rw [baseField, baseReg_val, Nat.add_sub_cancel_left, BitVec.ofNat_toNat, BitVec.setWidth_eq]

@[simp] theorem countOk_countLow (w : Word) : countOk (countLow w) = true := by
  rw [countOk_iff, countLow]
  omega

@[simp] theorem countOk_countHigh (w : Word) : countOk (countHigh w) = true := by
  rw [countOk_iff, countHigh]
  omega

@[simp] theorem lessOne_countLow (w : Word) : lessOne (countLow w) = nibble (gr2 w) := by
  simp only [lessOne, countLow, Nat.add_sub_cancel, ← nibble_toNat, BitVec.ofNat_toNat, BitVec.setWidth_eq]

@[simp] theorem lessOne_countHigh (w : Word) : lessOne (countHigh w) = nibble (gr1 w) := by
  simp only [lessOne, countHigh, Nat.add_sub_cancel, ← nibble_toNat, BitVec.ofNat_toNat, BitVec.setWidth_eq]

/-! ## What the decoder finds in an encoded word -/

section

variable (op : Byte) (a b : BitVec 4)

@[simp] theorem nibble_toFin (r : Fin 16) : (nibble r).toFin = r := rfl

@[simp] theorem opHigh_pack : opHigh (pack op a b) = op.toNat / 16 := (pack_eq_iff.1 rfl).1

@[simp] theorem opLow_pack : opLow (pack op a b) = op.toNat % 16 := (pack_eq_iff.1 rfl).2.1

@[simp] theorem gr1_pack : gr1 (pack op a b) = a.toFin := Fin.ext (pack_eq_iff.1 rfl).2.2.1

@[simp] theorem gr2_pack : gr2 (pack op a b) = b.toFin := Fin.ext (pack_eq_iff.1 rfl).2.2.2

theorem countHigh_pack {n : Nat} (h : countOk n = true) : countHigh (pack op (lessOne n) b) = n := by
  rw [countHigh, gr1_pack]
  exact lessOne_toNat_add_one h

theorem countLow_pack {n : Nat} (h : countOk n = true) : countLow (pack op a (lessOne n)) = n := by
  rw [countLow, gr2_pack]
  exact lessOne_toNat_add_one h

variable (x : Byte)

@[simp] theorem opHigh_packByte : opHigh (packByte op x) = op.toNat / 16 := (packByte_eq_iff.1 rfl).1

@[simp] theorem opLow_packByte : opLow (packByte op x) = op.toNat % 16 := (packByte_eq_iff.1 rfl).2.1

@[simp] theorem lowByte_packByte : lowByte (packByte op x) = x := (packByte_eq_iff.1 rfl).2.2

variable (op6 : BitVec 6) (br rx : Reg)

@[simp] theorem opHigh_packBase : opHigh (packBase op6 br x) = op6.toNat / 4 := (packBase_eq_iff.1 rfl).1

@[simp] theorem baseOpcodeBits_packBase : (packBase op6 br x).extractLsb' 10 2 = op6.extractLsb' 0 2 :=
  BitVec.eq_of_toNat_eq (by rw [(packBase_eq_iff.1 rfl).2.1, BitVec.extractLsb'_toNat, Nat.shiftRight_zero])

@[simp] theorem lowByte_packBase : lowByte (packBase op6 br x) = x := (packBase_eq_iff.1 rfl).2.2.2

theorem baseReg_packBase {br : Reg} (h : baseOk br = true) : baseReg (packBase op6 br x) = br :=
  baseReg_of_baseField (packBase_eq_iff.1 rfl).2.2.1 h

variable (opex : BitVec 4)

@[simp] theorem opHigh_packIndexed : opHigh (packIndexed opex br rx) = 4 := (packIndexed_eq_iff.1 rfl).1

theorem opLow_packIndexed : opLow (packIndexed opex br rx) < 4 := (packIndexed_eq_iff.1 rfl).2.1

@[simp] theorem gr1_packIndexed_val : (gr1 (packIndexed opex br rx)).val = opex.toNat :=
  (packIndexed_eq_iff.1 rfl).2.2.2.1

@[simp] theorem gr2_packIndexed : gr2 (packIndexed opex br rx) = rx := (packIndexed_eq_iff.1 rfl).2.2.2.2

theorem baseReg_packIndexed {br : Reg} (h : baseOk br = true) : baseReg (packIndexed opex br rx) = br :=
  baseReg_of_baseField (packIndexed_eq_iff.1 rfl).2.2.1 h

variable {w0 w1 : Word}

/-- The opcode bytes 40 to 43 are one cell of the matrix (30_encoding R279). -/
theorem decodeColumn4_of_opLow_lt (h : opLow w0 < 4) : decodeColumn4 w0 w1 = .ok (decodeIndexed w0) := by
  unfold decodeColumn4
  interval_cases opLow w0 <;> rfl

/-! ## The column that the high digit of the opcode byte chooses (30_encoding R261) -/

theorem decode_column0 (h : opHigh w0 = 0) : decode w0 w1 = .ok (decodeColumn0 w0) := by
  rw [decode, h]
  rfl

theorem decode_column1 (h : opHigh w0 = 1) : decode w0 w1 = .ok (decodeColumn1 w0) := by
  rw [decode, h]
  rfl

theorem decode_column2 (h : opHigh w0 = 2) : decode w0 w1 = .ok (decodeColumn2 w0) := by
  rw [decode, h]
  rfl

theorem decode_column3 (h : opHigh w0 = 3) : decode w0 w1 = .ok (decodeColumn3 w0) := by
  rw [decode, h]
  rfl

theorem decode_column4 (h : opHigh w0 = 4) : decode w0 w1 = decodeColumn4 w0 w1 := by
  rw [decode, h]
  rfl

theorem decode_column5 (h : opHigh w0 = 5) : decode w0 w1 = decodeColumn5 w0 w1 := by
  rw [decode, h]
  rfl

theorem decode_column6 (h : opHigh w0 = 6) : decode w0 w1 = decodeColumn6 w0 := by
  rw [decode, h]
  rfl

theorem decode_column7 (h : opHigh w0 = 7) : decode w0 w1 = decodeColumn7 w0 w1 := by
  rw [decode, h]
  rfl

theorem decode_column8 (h : opHigh w0 = 8) : decode w0 w1 = decodeColumn8 w0 w1 := by
  rw [decode, h]
  rfl

theorem decode_column9 (h : opHigh w0 = 9) : decode w0 w1 = decodeColumn9 w0 w1 := by
  rw [decode, h]
  rfl

theorem decode_columnA (h : opHigh w0 = 10) : decode w0 w1 = decodeColumnA w0 w1 := by
  rw [decode, h]
  rfl

theorem decode_columnB (h : opHigh w0 = 11) : decode w0 w1 = decodeColumnB w0 w1 := by
  rw [decode, h]
  rfl

theorem decode_columnC (h : opHigh w0 = 12) : decode w0 w1 = decodeColumnC w0 w1 := by
  rw [decode, h]
  rfl

theorem decode_columnD (h : opHigh w0 = 13) : decode w0 w1 = decodeColumnD w0 w1 := by
  rw [decode, h]
  rfl

theorem decode_columnE (h : opHigh w0 = 14) : decode w0 w1 = decodeColumnE w0 w1 := by
  rw [decode, h]
  rfl

theorem decode_columnF (h : opHigh w0 = 15) : decode w0 w1 = decodeColumnF w0 w1 := by
  rw [decode, h]
  rfl

end

/-! ## Decoding an encoding -/

/-- The words that an instruction is decoded from: as many as the instruction has. -/
def DecodesTo (i : Instr) : List Word → Prop
  | [w0] => i.words = 1 ∧ decode w0 0x0000#16 = .ok i
  | [w0, w1] => i.words = 2 ∧ decode w0 w1 = .ok i
  | _ => False

/-- Each constructor is found in its column of the matrix: the fields of its first word are the ones written there. -/
theorem decodesTo_encode {i : Instr} (h : i.wellFormed = true) : DecodesTo i (encode i) := by
  cases i
  case lb | dlb | stb | dstb => exact ⟨rfl, by simp [decode_column0, decodeColumn0, baseReg_packBase _ _ h]⟩
  case ab | sbb | mb | db => exact ⟨rfl, by simp [decode_column1, decodeColumn1, baseReg_packBase _ _ h]⟩
  case fab | fsb | fmb | fdb => exact ⟨rfl, by simp [decode_column2, decodeColumn2, baseReg_packBase _ _ h]⟩
  case fcb | orb | andb | cb => exact ⟨rfl, by simp [decode_column3, decodeColumn3, baseReg_packBase _ _ h]⟩
  case lbx | dlbx | stbx | dstx | abx | sbbx | mbx | dbx | fabx | fsbx | fmbx | fdbx | fcbx | cbx | andx | orbx =>
    exact ⟨rfl, by simp [decode_column4, decodeColumn4_of_opLow_lt, opLow_packIndexed, decodeIndexed,
      baseReg_packIndexed _ _ h]⟩
  case xio | vio | aim | sim | mim | msim | dim | dvim | andm | orim | xorm | cim | nim =>
    exact ⟨rfl, by simp [decode_column4, decodeColumn4, decodeImmediate]⟩
  case sb | sbr | sbi | rb | rbr | rbi | tb | tbr | tbi | tsb | svbr | rvbr | tvbr =>
    exact ⟨rfl, by simp [decode_column5, decodeColumn5]⟩
  case slr | sar | scr | dslr | dsar | dscr => exact ⟨rfl, by simp [decode_column6, decodeColumn6]⟩
  case sll | srl | sra | slc | dsll | dsrl | dsra | dslc =>
    exact ⟨rfl, by simp [decode_column6, decodeColumn6, countHigh_pack _ _ h]⟩
  case jc | jci | js | soj | bex | lsti | lst | sjs | urs => exact ⟨rfl, by simp [decode_column7, decodeColumn7]⟩
  case br | bez | blt | ble | bgt | bnz | bge => exact ⟨rfl, by simp [decode_column7, decodeColumn7]⟩
  case l | lr | li | lim | dl | dlr | dli | lm | efl | lub | llb | lubi | llbi | popm =>
    exact ⟨rfl, by simp [decode_column8, decodeColumn8]⟩
  case lisp | lisn => exact ⟨rfl, by simp [decode_column8, decodeColumn8, countLow_pack _ _ h]⟩
  case st | stc | stci | mov | sti | dst | srm | dsti | stm | efst | stub | stlb | subi | slbi | pshm =>
    exact ⟨rfl, by simp [decode_column9, decodeColumn9]⟩
  case a | ar | abs | dabs | da | dar | far | fa | efar | efa | fabs =>
    exact ⟨rfl, by simp [decode_columnA, decodeColumnA]⟩
  case aisp => exact ⟨rfl, by simp [decode_columnA, decodeColumnA, countLow_pack _ _ h]⟩
  case incm => exact ⟨rfl, by simp [decode_columnA, decodeColumnA, countHigh_pack _ _ h]⟩
  case s | sr | neg | dneg | ds | dsr | fsr | fs | efsr | efs | fneg =>
    exact ⟨rfl, by simp [decode_columnB, decodeColumnB]⟩
  case sisp => exact ⟨rfl, by simp [decode_columnB, decodeColumnB, countLow_pack _ _ h]⟩
  case decm => exact ⟨rfl, by simp [decode_columnB, decodeColumnB, countHigh_pack _ _ h]⟩
  case ms | msr | m | mr | dm | dmr | fmr | fm | efmr | efm => exact ⟨rfl, by simp [decode_columnC, decodeColumnC]⟩
  case misp | misn => exact ⟨rfl, by simp [decode_columnC, decodeColumnC, countLow_pack _ _ h]⟩
  case dv | dvr | d | dr | dd | ddr | fdr | fd | efdr | efd => exact ⟨rfl, by simp [decode_columnD, decodeColumnD]⟩
  case disp | disn => exact ⟨rfl, by simp [decode_columnD, decodeColumnD, countLow_pack _ _ h]⟩
  case fix | flt | efix | eflt | or | orr | and | andr | xor | xorr | n | nr | xbr | xwr =>
    exact ⟨rfl, by simp [decode_columnE, decodeColumnE]⟩
  case fcr | fc | efcr | efc | c | cr | cbl | dc | dcr => exact ⟨rfl, by simp [decode_columnF, decodeColumnF]⟩
  case cisp | cisn => exact ⟨rfl, by simp [decode_columnF, decodeColumnF, countLow_pack _ _ h]⟩
  case nop | bpt => exact ⟨rfl, rfl⟩
  -- BIF, whose constructor has the name of a Lean keyword, is the goal left.
  · exact ⟨rfl, by simp [decode_column4, decodeColumn4]⟩

/-- The stream decoder takes the words of one instruction and answers the rest. -/
theorem decodeWords_of_decodesTo {i : Instr} {ws : List Word} (h : DecodesTo i ws) (rest : List Word) :
    decodeWords (ws ++ rest) = .ok (i, rest) := by
  match ws, h with
  | [w0], ⟨hw, hd⟩ => simp [decodeWords, lengthOf_of_decode hd, hw, hd, Except.map]
  | [w0, w1], ⟨hw, hd⟩ => simp [decodeWords, lengthOf_of_decode hd, hw, hd, Except.map]

/-- Settles O2: the first word holds its fields where the decoder looks for them, and its length is that of the
instruction. -/
theorem decodeInvertsEncode : Obligations.DecodeInvertsEncode := by
  unfold Obligations.DecodeInvertsEncode
  exact fun i rest h => decodeWords_of_decodesTo (decodesTo_encode h) rest

/-! ## Encoding what was decoded -/

/-- What O3 says of one answer of the decoder; a refusal says nothing. -/
def ReadsBack (w0 w1 : Word) : Except DecodeError Instr → Prop
  | .ok i => i.wellFormed = true ∧ encode i = if i.words = 2 then [w0, w1] else [w0]
  | .error _ => True

section

variable {w0 w1 : Word} {i : Instr} {t : List Word}

/-- It is enough that the encoding begins with the word read, since the length gives the rest. -/
theorem ReadsBack.of_first_word {v : Word} (hi : i.wellFormed = true) (he : encode i = v :: t)
    (ht : t = if i.words = 2 then [w1] else []) (hv : v = w0) : ReadsBack w0 w1 (.ok i) := by
  refine ⟨hi, ?_⟩
  rw [he, ht, hv]
  split <;> rfl

theorem ReadsBack.of_pack {op : Byte} {a b : BitVec 4} (hi : i.wellFormed = true) (he : encode i = pack op a b :: t)
    (ht : t = if i.words = 2 then [w1] else []) (hh : opHigh w0 = op.toNat / 16) (hl : opLow w0 = op.toNat % 16)
    (ha : (gr1 w0).val = a.toNat) (hb : (gr2 w0).val = b.toNat) : ReadsBack w0 w1 (.ok i) :=
  .of_first_word hi he ht (pack_eq_iff.2 ⟨hh, hl, ha, hb⟩)

theorem ReadsBack.of_packByte {op : Byte} (hi : i.wellFormed = true) (he : encode i = packByte op (lowByte w0) :: t)
    (ht : t = if i.words = 2 then [w1] else []) (hh : opHigh w0 = op.toNat / 16) (hl : opLow w0 = op.toNat % 16) :
    ReadsBack w0 w1 (.ok i) :=
  .of_first_word hi he ht (packByte_eq_iff.2 ⟨hh, hl, rfl⟩)

theorem ReadsBack.of_packBase {op6 : BitVec 6} (hi : i.wellFormed = baseOk (baseReg w0))
    (he : encode i = packBase op6 (baseReg w0) (lowByte w0) :: t) (ht : t = if i.words = 2 then [w1] else [])
    (hh : opHigh w0 = op6.toNat / 4) (hk : (w0.extractLsb' 10 2).toNat = op6.toNat % 4) : ReadsBack w0 w1 (.ok i) :=
  .of_first_word (hi.trans (baseOk_baseReg w0)) he ht (packBase_eq_iff.2 ⟨hh, hk, (baseField_baseReg w0).symm, rfl⟩)

theorem ReadsBack.of_packIndexed {opex : BitVec 4} (hi : i.wellFormed = baseOk (baseReg w0))
    (he : encode i = packIndexed opex (baseReg w0) (gr2 w0) :: t) (ht : t = if i.words = 2 then [w1] else [])
    (hh : opHigh w0 = 4) (hl : opLow w0 < 4) (hx : (gr1 w0).val = opex.toNat) : ReadsBack w0 w1 (.ok i) :=
  .of_first_word (hi.trans (baseOk_baseReg w0)) he ht
    (packIndexed_eq_iff.2 ⟨hh, hl, (baseField_baseReg w0).symm, hx, rfl⟩)

/-- The field that a count was read from holds the count less one. -/
theorem gr1_val_eq_lessOne (w : Word) : (gr1 w).val = (lessOne (countHigh w)).toNat := by
  rw [lessOne_countHigh, nibble_toNat]

theorem gr2_val_eq_lessOne (w : Word) : (gr2 w).val = (lessOne (countLow w)).toNat := by
  rw [lessOne_countLow, nibble_toNat]

theorem decodeColumn0_readsBack (h : opHigh w0 = 0) (w1 : Word) : ReadsBack w0 w1 (.ok (decodeColumn0 w0)) := by
  have hk : (w0.extractLsb' 10 2).toNat < 4 := BitVec.isLt _
  unfold decodeColumn0
  interval_cases hw : (w0.extractLsb' 10 2).toNat <;> exact .of_packBase rfl rfl rfl h hw

theorem decodeColumn1_readsBack (h : opHigh w0 = 1) (w1 : Word) : ReadsBack w0 w1 (.ok (decodeColumn1 w0)) := by
  have hk : (w0.extractLsb' 10 2).toNat < 4 := BitVec.isLt _
  unfold decodeColumn1
  interval_cases hw : (w0.extractLsb' 10 2).toNat <;> exact .of_packBase rfl rfl rfl h hw

theorem decodeColumn2_readsBack (h : opHigh w0 = 2) (w1 : Word) : ReadsBack w0 w1 (.ok (decodeColumn2 w0)) := by
  have hk : (w0.extractLsb' 10 2).toNat < 4 := BitVec.isLt _
  unfold decodeColumn2
  interval_cases hw : (w0.extractLsb' 10 2).toNat <;> exact .of_packBase rfl rfl rfl h hw

theorem decodeColumn3_readsBack (h : opHigh w0 = 3) (w1 : Word) : ReadsBack w0 w1 (.ok (decodeColumn3 w0)) := by
  have hk : (w0.extractLsb' 10 2).toNat < 4 := BitVec.isLt _
  unfold decodeColumn3
  interval_cases hw : (w0.extractLsb' 10 2).toNat <;> exact .of_packBase rfl rfl rfl h hw

theorem decodeIndexed_readsBack (h : opHigh w0 = 4) (hl : opLow w0 < 4) (w1 : Word) :
    ReadsBack w0 w1 (.ok (decodeIndexed w0)) := by
  have hk : (gr1 w0).val < 16 := Fin.isLt _
  unfold decodeIndexed
  interval_cases hw : (gr1 w0).val <;> exact .of_packIndexed rfl rfl rfl h hl hw

theorem decodeImmediate_readsBack (h : opHigh w0 = 4) (hl : opLow w0 = 10) (w1 : Word) :
    ReadsBack w0 w1 (decodeImmediate w0 w1) := by
  unfold decodeImmediate
  split
  case h_12 => trivial
  all_goals exact .of_pack rfl rfl rfl h hl rfl ‹_›

theorem decodeColumn4_readsBack (h : opHigh w0 = 4) (w1 : Word) : ReadsBack w0 w1 (decodeColumn4 w0 w1) := by
  unfold decodeColumn4
  split
  case h_1 | h_2 | h_3 | h_4 => exact decodeIndexed_readsBack h (by omega) w1
  case h_5 | h_6 => exact .of_pack rfl rfl rfl h ‹_› rfl rfl
  case h_7 => exact decodeImmediate_readsBack h ‹_› w1
  case h_8 => exact .of_packByte rfl rfl rfl h ‹_›
  case h_9 => trivial

theorem decodeColumn5_readsBack (h : opHigh w0 = 5) (w1 : Word) : ReadsBack w0 w1 (decodeColumn5 w0 w1) := by
  unfold decodeColumn5
  split
  case h_14 => trivial
  all_goals exact .of_pack rfl rfl rfl h ‹_› rfl rfl

theorem decodeColumn6_readsBack (h : opHigh w0 = 6) (w1 : Word) : ReadsBack w0 w1 (decodeColumn6 w0) := by
  unfold decodeColumn6
  split
  case h_1 | h_2 | h_3 | h_4 | h_5 | h_6 | h_7 | h_8 =>
    exact .of_pack (countOk_countHigh w0) rfl rfl h ‹_› (gr1_val_eq_lessOne w0) rfl
  case h_15 => trivial
  all_goals exact .of_pack rfl rfl rfl h ‹_› rfl rfl

theorem decodeColumn7_readsBack (h : opHigh w0 = 7) (w1 : Word) : ReadsBack w0 w1 (decodeColumn7 w0 w1) := by
  unfold decodeColumn7
  split
  case h_5 | h_6 | h_7 | h_9 | h_10 | h_11 | h_12 => exact .of_packByte rfl rfl rfl h ‹_›
  case h_8 | h_13 | h_14 =>
    split
    case isTrue hz => exact .of_pack rfl rfl rfl h ‹_› hz rfl
    case isFalse => trivial
  case h_16 =>
    split
    case isTrue hz => exact .of_pack rfl rfl rfl h ‹_› rfl hz
    case isFalse => trivial
  case h_17 => trivial
  all_goals exact .of_pack rfl rfl rfl h ‹_› rfl rfl

theorem decodeColumn8_readsBack (h : opHigh w0 = 8) (w1 : Word) : ReadsBack w0 w1 (decodeColumn8 w0 w1) := by
  unfold decodeColumn8
  split
  case h_3 | h_4 =>
    exact .of_pack (countOk_countLow w0) rfl rfl h ‹_› rfl (gr2_val_eq_lessOne w0)
  case h_17 => trivial
  all_goals exact .of_pack rfl rfl rfl h ‹_› rfl rfl

theorem decodeColumn9_readsBack (h : opHigh w0 = 9) (w1 : Word) : ReadsBack w0 w1 (decodeColumn9 w0 w1) := by
  unfold decodeColumn9
  split
  case h_16 => trivial
  all_goals exact .of_pack rfl rfl rfl h ‹_› rfl rfl

theorem decodeColumnA_readsBack (h : opHigh w0 = 10) (w1 : Word) : ReadsBack w0 w1 (decodeColumnA w0 w1) := by
  unfold decodeColumnA
  split
  case h_3 =>
    exact .of_pack (countOk_countLow w0) rfl rfl h ‹_› rfl (gr2_val_eq_lessOne w0)
  case h_4 =>
    exact .of_pack (countOk_countHigh w0) rfl rfl h ‹_› (gr1_val_eq_lessOne w0) rfl
  case h_14 => trivial
  all_goals exact .of_pack rfl rfl rfl h ‹_› rfl rfl

theorem decodeColumnB_readsBack (h : opHigh w0 = 11) (w1 : Word) : ReadsBack w0 w1 (decodeColumnB w0 w1) := by
  unfold decodeColumnB
  split
  case h_3 =>
    exact .of_pack (countOk_countLow w0) rfl rfl h ‹_› rfl (gr2_val_eq_lessOne w0)
  case h_4 =>
    exact .of_pack (countOk_countHigh w0) rfl rfl h ‹_› (gr1_val_eq_lessOne w0) rfl
  case h_14 => trivial
  all_goals exact .of_pack rfl rfl rfl h ‹_› rfl rfl

theorem decodeColumnC_readsBack (h : opHigh w0 = 12) (w1 : Word) : ReadsBack w0 w1 (decodeColumnC w0 w1) := by
  unfold decodeColumnC
  split
  case h_3 | h_4 =>
    exact .of_pack (countOk_countLow w0) rfl rfl h ‹_› rfl (gr2_val_eq_lessOne w0)
  case h_13 => trivial
  all_goals exact .of_pack rfl rfl rfl h ‹_› rfl rfl

theorem decodeColumnD_readsBack (h : opHigh w0 = 13) (w1 : Word) : ReadsBack w0 w1 (decodeColumnD w0 w1) := by
  unfold decodeColumnD
  split
  case h_3 | h_4 =>
    exact .of_pack (countOk_countLow w0) rfl rfl h ‹_› rfl (gr2_val_eq_lessOne w0)
  case h_13 => trivial
  all_goals exact .of_pack rfl rfl rfl h ‹_› rfl rfl

theorem decodeColumnE_readsBack (h : opHigh w0 = 14) (w1 : Word) : ReadsBack w0 w1 (decodeColumnE w0 w1) := by
  unfold decodeColumnE
  split
  case h_13 =>
    split
    case isTrue hz => exact .of_pack rfl rfl rfl h ‹_› rfl hz
    case isFalse => trivial
  case h_15 => trivial
  all_goals exact .of_pack rfl rfl rfl h ‹_› rfl rfl

theorem decodeColumnF_readsBack (h : opHigh w0 = 15) (w1 : Word) : ReadsBack w0 w1 (decodeColumnF w0 w1) := by
  unfold decodeColumnF
  split
  case h_3 | h_4 => exact .of_pack (countOk_countLow w0) rfl rfl h ‹_› rfl (gr2_val_eq_lessOne w0)
  case h_12 hl =>
    split
    case isTrue hb =>
        exact .of_first_word (v := packByte 0xFF#8 0x00#8) rfl rfl rfl (packByte_eq_iff.2 ⟨h, hl, hb⟩)
    case isFalse =>
      split
      case isTrue hb =>
        exact .of_first_word (v := packByte 0xFF#8 0xFF#8) rfl rfl rfl (packByte_eq_iff.2 ⟨h, hl, hb⟩)
      case isFalse => trivial
  case h_13 => trivial
  all_goals exact .of_pack rfl rfl rfl h ‹_› rfl rfl

end

/-- The decoder forgets nothing that the encoder writes: column by column of the matrix. -/
theorem decode_readsBack (w0 w1 : Word) : ReadsBack w0 w1 (decode w0 w1) := by
  have hh : opHigh w0 < 16 := BitVec.isLt _
  interval_cases h : opHigh w0
  · exact decode_column0 h ▸ decodeColumn0_readsBack h w1
  · exact decode_column1 h ▸ decodeColumn1_readsBack h w1
  · exact decode_column2 h ▸ decodeColumn2_readsBack h w1
  · exact decode_column3 h ▸ decodeColumn3_readsBack h w1
  · exact decode_column4 h ▸ decodeColumn4_readsBack h w1
  · exact decode_column5 h ▸ decodeColumn5_readsBack h w1
  · exact decode_column6 h ▸ decodeColumn6_readsBack h w1
  · exact decode_column7 h ▸ decodeColumn7_readsBack h w1
  · exact decode_column8 h ▸ decodeColumn8_readsBack h w1
  · exact decode_column9 h ▸ decodeColumn9_readsBack h w1
  · exact decode_columnA h ▸ decodeColumnA_readsBack h w1
  · exact decode_columnB h ▸ decodeColumnB_readsBack h w1
  · exact decode_columnC h ▸ decodeColumnC_readsBack h w1
  · exact decode_columnD h ▸ decodeColumnD_readsBack h w1
  · exact decode_columnE h ▸ decodeColumnE_readsBack h w1
  · exact decode_columnF h ▸ decodeColumnF_readsBack h w1

/-- Settles O3: in every row of the matrix the decoder reads all the fields that the encoder packs. -/
theorem encodeInvertsDecode : Obligations.EncodeInvertsDecode := by
  unfold Obligations.EncodeInvertsDecode
  intro w0 w1 i hd
  have hr := decode_readsBack w0 w1
  rwa [hd] at hr

/-! ## The first words that the decoder refuses (30_encoding R276) -/

/-- The decoder answers with an error. -/
def Refused (r : Except DecodeError Instr) : Prop := ∃ e, r = .error e

@[simp] theorem refused_error (e : DecodeError) : Refused (.error e) := ⟨e, rfl⟩

@[simp] theorem not_refused_ok (i : Instr) : ¬Refused (.ok i) := nofun

@[simp] theorem refused_noOpcode (w0 : Word) : Refused (noOpcode w0) := ⟨_, rfl⟩

/-- The empty cells of the matrix of R261, as rows of each column. -/
def emptyRows : Nat → List Nat
  | 4 => [4, 5, 6, 7, 11, 12, 13, 14]
  | 5 => [11, 13, 15]
  | 6 => [4, 9]
  | 9 => [5]
  | 10 | 11 => [13, 14, 15]
  | 12 | 13 => [12, 13, 14, 15]
  | 14 => [14, 15]
  | 15 => [5, 12, 13, 14]
  | _ => []

/-- The opcode bytes of the empty cells, in the order in which the table of R276 lists them. -/
def emptyCells : List Nat :=
  [0x44, 0x45, 0x46, 0x47, 0x4B, 0x4C, 0x4D, 0x4E, 0x5B, 0x5D, 0x5F, 0x64, 0x69, 0x95, 0xAD, 0xAE, 0xAF, 0xBD, 0xBE, 0xBF,
    0xCC, 0xCD, 0xCE, 0xCF, 0xDC, 0xDD, 0xDE, 0xDF, 0xEE, 0xEF, 0xF5, 0xFC, 0xFD, 0xFE]

/-- The two ways of listing the empty cells agree. -/
theorem mem_emptyCells_iff : ∀ h < 16, ∀ l < 16, 16 * h + l ∈ emptyCells ↔ l ∈ emptyRows h := by decide

section

variable (w0 w1 : Word)

theorem decodeImmediate_refused_iff :
    Refused (decodeImmediate w0 w1) ↔ (gr2 w0).val = 0 ∨ 12 ≤ (gr2 w0).val := by
  have hg : (gr2 w0).val < 16 := Fin.isLt _
  unfold decodeImmediate
  interval_cases (gr2 w0).val <;> simp

theorem decodeColumn4_refused_iff :
    Refused (decodeColumn4 w0 w1) ↔
      opLow w0 ∈ emptyRows 4 ∨ (opLow w0 = 10 ∧ Refused (decodeImmediate w0 w1)) := by
  have hl : opLow w0 < 16 := BitVec.isLt _
  unfold decodeColumn4
  interval_cases opLow w0 <;> simp [emptyRows]

theorem decodeColumn5_refused_iff : Refused (decodeColumn5 w0 w1) ↔ opLow w0 ∈ emptyRows 5 := by
  have hl : opLow w0 < 16 := BitVec.isLt _
  unfold decodeColumn5
  interval_cases opLow w0 <;> simp [emptyRows]

theorem decodeColumn6_refused_iff : Refused (decodeColumn6 w0) ↔ opLow w0 ∈ emptyRows 6 := by
  have hl : opLow w0 < 16 := BitVec.isLt _
  unfold decodeColumn6
  interval_cases opLow w0 <;> simp [emptyRows]

theorem decodeColumn7_refused_iff :
    Refused (decodeColumn7 w0 w1) ↔
      (opLow w0 ∈ [7, 12, 13] ∧ (gr1 w0).val ≠ 0) ∨ (opLow w0 = 15 ∧ (gr2 w0).val ≠ 0) := by
  have hl : opLow w0 < 16 := BitVec.isLt _
  unfold decodeColumn7
  interval_cases opLow w0 <;> simp [apply_ite Refused]

theorem decodeColumn8_not_refused : ¬Refused (decodeColumn8 w0 w1) := by
  have hl : opLow w0 < 16 := BitVec.isLt _
  unfold decodeColumn8
  interval_cases opLow w0 <;> simp

theorem decodeColumn9_refused_iff : Refused (decodeColumn9 w0 w1) ↔ opLow w0 ∈ emptyRows 9 := by
  have hl : opLow w0 < 16 := BitVec.isLt _
  unfold decodeColumn9
  interval_cases opLow w0 <;> simp [emptyRows]

theorem decodeColumnA_refused_iff : Refused (decodeColumnA w0 w1) ↔ opLow w0 ∈ emptyRows 10 := by
  have hl : opLow w0 < 16 := BitVec.isLt _
  unfold decodeColumnA
  interval_cases opLow w0 <;> simp [emptyRows]

theorem decodeColumnB_refused_iff : Refused (decodeColumnB w0 w1) ↔ opLow w0 ∈ emptyRows 11 := by
  have hl : opLow w0 < 16 := BitVec.isLt _
  unfold decodeColumnB
  interval_cases opLow w0 <;> simp [emptyRows]

theorem decodeColumnC_refused_iff : Refused (decodeColumnC w0 w1) ↔ opLow w0 ∈ emptyRows 12 := by
  have hl : opLow w0 < 16 := BitVec.isLt _
  unfold decodeColumnC
  interval_cases opLow w0 <;> simp [emptyRows]

theorem decodeColumnD_refused_iff : Refused (decodeColumnD w0 w1) ↔ opLow w0 ∈ emptyRows 13 := by
  have hl : opLow w0 < 16 := BitVec.isLt _
  unfold decodeColumnD
  interval_cases opLow w0 <;> simp [emptyRows]

theorem decodeColumnE_refused_iff :
    Refused (decodeColumnE w0 w1) ↔ opLow w0 ∈ emptyRows 14 ∨ (opLow w0 = 12 ∧ (gr2 w0).val ≠ 0) := by
  have hl : opLow w0 < 16 := BitVec.isLt _
  unfold decodeColumnE
  interval_cases opLow w0 <;> simp [emptyRows, apply_ite Refused]

theorem decodeColumnF_refused_iff :
    Refused (decodeColumnF w0 w1) ↔
      opLow w0 ∈ emptyRows 15 ∨ (opLow w0 = 15 ∧ lowByte w0 ≠ 0x00#8 ∧ lowByte w0 ≠ 0xFF#8) := by
  have hl : opLow w0 < 16 := BitVec.isLt _
  unfold decodeColumnF
  interval_cases opLow w0 <;> simp [emptyRows, apply_ite Refused]

end

/-- Refused are the empty cells of the matrix, the unassigned extensions of 4A and FF, and a reserved field that is not
zero. -/
theorem decode_refused_iff (w0 w1 : Word) :
    Refused (decode w0 w1) ↔ opLow w0 ∈ emptyRows (opHigh w0) ∨
      (opHigh w0 = 4 ∧ opLow w0 = 10 ∧ ((gr2 w0).val = 0 ∨ 12 ≤ (gr2 w0).val)) ∨
      (opHigh w0 = 15 ∧ opLow w0 = 15 ∧ lowByte w0 ≠ 0x00#8 ∧ lowByte w0 ≠ 0xFF#8) ∨
      (opHigh w0 = 7 ∧ opLow w0 ∈ [7, 12, 13] ∧ (gr1 w0).val ≠ 0) ∨
      ((opHigh w0 = 7 ∧ opLow w0 = 15 ∨ opHigh w0 = 14 ∧ opLow w0 = 12) ∧ (gr2 w0).val ≠ 0) := by
  have hh : opHigh w0 < 16 := BitVec.isLt _
  interval_cases h : opHigh w0
  · simp [decode_column0 h, emptyRows]
  · simp [decode_column1 h, emptyRows]
  · simp [decode_column2 h, emptyRows]
  · simp [decode_column3 h, emptyRows]
  · simp [decode_column4 h, decodeColumn4_refused_iff, decodeImmediate_refused_iff]
  · simp [decode_column5 h, decodeColumn5_refused_iff]
  · simp [decode_column6 h, decodeColumn6_refused_iff]
  · simp [decode_column7 h, decodeColumn7_refused_iff, emptyRows]
  · simp [decode_column8 h, decodeColumn8_not_refused, emptyRows]
  · simp [decode_column9 h, decodeColumn9_refused_iff]
  · simp [decode_columnA h, decodeColumnA_refused_iff]
  · simp [decode_columnB h, decodeColumnB_refused_iff]
  · simp [decode_columnC h, decodeColumnC_refused_iff]
  · simp [decode_columnD h, decodeColumnD_refused_iff]
  · simp [decode_columnE h, decodeColumnE_refused_iff]
  · simp [decode_columnF h, decodeColumnF_refused_iff]

/-- Settles O4: the refusals of the sixteen columns, put together by the digits of the opcode byte. -/
theorem decodeRefusesReservedWords : Obligations.DecodeRefusesReservedWords := by
  unfold Obligations.DecodeRefusesReservedWords
  intro w0 w1
  change Refused (decode w0 w1) ↔ w0.toNat / 256 ∈ emptyCells ∨ _
  have hl : opLow w0 < 16 := BitVec.isLt _
  rw [decode_refused_iff, opByte_digits, mem_emptyCells_iff _ (BitVec.isLt _) _ hl, ← gr1_val, ← gr2_val,
    ← lowByte_toNat]
  refine or_congr_right ?_
  simp only [List.mem_cons, List.not_mem_nil, or_false, ne_eq, ← BitVec.toNat_inj, BitVec.reduceToNat]
  omega

end Sys2Proof

namespace Sys2Proof.Machine

/-! ## The derived addresses (30_encoding R262 to R271) -/

theorem index_toNat (rx : Reg) (s : State) : (index rx s).toNat = if rx = 0 then 0 else (s.reg rx).toNat := by
  rw [index, apply_ite BitVec.toNat]
  rfl

/-- The sum with a signed displacement, over the integers. -/
theorem daIcRelative_toNat (x : Byte) (s : State) :
    ((daIcRelative x s).toNat : Int) = ((s.ic.toNat : Int) - 1 + x.toInt) % 65536 := by
  have hx : ((x.signExtend 16).toNat : Int) % 65536 = x.toInt % 65536 := by
    rw [← BitVec.toInt_signExtend_of_le (x := x) (show 8 ≤ 16 by decide), BitVec.toInt_eq_toNat_cond]
    split <;> omega
  rw [daIcRelative, currentAddress, BitVec.toNat_add, BitVec.toNat_sub,
    show (1 : Word).toNat = 1 from rfl]
  omega

/-- Settles O22: 16-bit sums are sums modulo 2^16; the displacement of ICR is signed. -/
theorem derivedAddressesAreSumsModulo : Obligations.DerivedAddressesAreSumsModulo := by
  unfold Obligations.DerivedAddressesAreSumsModulo
  intro s rx br addr x
  refine ⟨?_, rfl, ?_, ?_, daIcRelative_toNat x s⟩
  · rw [daLong, BitVec.toNat_add, index_toNat]
  · rw [daBase, BitVec.toNat_add, BitVec.toNat_setWidth_of_le (by decide)]
  · rw [daBaseIndexed, BitVec.toNat_add, index_toNat]

end Sys2Proof.Machine

/-! # XIO and VIO (40_io)

The command words, the effects of the commands, the outcome of XIO and the chain of VIO. -/

namespace Sys2Proof.Machine

/-! ## The command word (40_io R301 to R304) -/

theorem commandGroup_eq (c : Word) : commandGroup c = c.toNat / 256 := by
  have := c.isLt
  rw [commandGroup, BitVec.extractLsb'_toNat, Nat.shiftRight_eq_div_pow]
  omega

theorem commandLow_eq (c : Word) : commandLow c = c.toNat % 256 := by
  rw [commandLow, BitVec.extractLsb'_toNat, Nat.shiftRight_zero]

theorem commandX_toNat (c : Word) : (commandX c).toNat = c.toNat / 16 % 16 := by
  rw [commandX, BitVec.extractLsb'_toNat, Nat.shiftRight_eq_div_pow]

@[simp] theorem whenOption_true (i : IoCommand) : whenOption true i = some i := rfl

theorem whenOption_ne_none {b : Bool} {i : IoCommand} : whenOption b i ≠ none ↔ b = true := by
  cases b <;> simp [whenOption]

theorem spareGroup_iff (c : Word) :
    spareGroup c = true ↔ (0x04 ≤ c.toNat / 256 % 128 ∧ c.toNat / 256 % 128 ≤ 0x1F) ∨
      (0x30 ≤ c.toNat / 256 % 128 ∧ c.toNat / 256 % 128 ≤ 0x3F) ∨ 0x53 ≤ c.toNat / 256 % 128 := by
  simp [spareGroup, commandGroup_eq, or_assoc]

/-- The group bytes of PO and PI. -/
theorem decodeIo_po (k : Config) {c : Word} (h : c.toNat ≤ 0x03FF) : decodeIo k c = some (.out (.po c)) := by
  have hg : commandGroup c < 4 := by
    rw [commandGroup_eq]
    omega
  unfold decodeIo
  interval_cases commandGroup c <;> rfl

theorem decodeIo_pi (k : Config) {c : Word} (hl : 0x8000 ≤ c.toNat) (hh : c.toNat ≤ 0x83FF) :
    decodeIo k c = some (.inp (.pi c)) := by
  have hg : 0x80 ≤ commandGroup c ∧ commandGroup c < 0x84 := by
    rw [commandGroup_eq]
    omega
  obtain ⟨hgl, hgh⟩ := hg
  unfold decodeIo
  interval_cases commandGroup c <;> rfl

/-- The command word of an optional command, in a configuration with the option. -/
theorem decodeIo_of_option {k : Config} {b : Bool} {c w : Word} {i : IoCommand} (hc : c = w) (hb : b = true)
    (h : decodeIo k w = whenOption b i) : decodeIo k c = some i := by
  rw [hc, h, hb, whenOption_true]

/-- The words of the memory protect RAM. -/
theorem decodeIo_lmp {k : Config} (hk : k.memProtectRam = true) {c : Word} (hg : c.toNat / 256 = 0x50)
    (hl : c.toNat % 256 < 128) : decodeIo k c = some (.out (.lmp (c.extractLsb' 0 7))) := by
  rw [← commandGroup_eq] at hg
  rw [← commandLow_eq] at hl
  simp [decodeIo, hg, mprotCommand, hk, hl]

theorem decodeIo_rmp {k : Config} (hk : k.memProtectRam = true) {c : Word} (hg : c.toNat / 256 = 0xD0)
    (hl : c.toNat % 256 < 128) : decodeIo k c = some (.inp (.rmp (c.extractLsb' 0 7))) := by
  rw [← commandGroup_eq] at hg
  rw [← commandLow_eq] at hl
  simp [decodeIo, hg, mprotCommand, hk, hl]

/-- The number of the word of the memory protect RAM that a command word names. -/
theorem mprotNumber_val (c : Word) : (c.extractLsb' 0 7).toFin.val = c.toNat % 128 := by
  change (c.extractLsb' 0 7).toNat = _
  rw [BitVec.extractLsb'_toNat, Nat.shiftRight_zero]

/-- A spare command that the application implements is named by its own word. -/
theorem decodeIo_spare {k : Config} {c : Word} (hk : c ∈ k.spareXio) (hg : spareGroup c = true) :
    decodeIo k c = some (if c.msb then .inp (.spareIn c) else .out (.spareOut c)) := by
  have hs : spareCommand k c (if c.msb then .inp (.spareIn c) else .out (.spareOut c)) =
      some (if c.msb then .inp (.spareIn c) else .out (.spareOut c)) := by simp [spareCommand, hg, hk]
  rw [spareGroup_iff, ← commandGroup_eq] at hg
  unfold decodeIo
  split
  case h_19 => exact hs
  all_goals omega

/-- A spare command word with bit 0 set is an input. -/
theorem decodeIo_spareIn {k : Config} {c : Word} (hk : c ∈ k.spareXio)
    (hg : (0x84 ≤ c.toNat / 256 ∧ c.toNat / 256 ≤ 0x9F) ∨ (0xB0 ≤ c.toNat / 256 ∧ c.toNat / 256 ≤ 0xBF) ∨
      0xD3 ≤ c.toNat / 256) : decodeIo k c = some (.inp (.spareIn c)) := by
  have hlt := c.isLt
  have hm : c.msb = true := by
    rw [BitVec.msb_eq_decide, decide_eq_true_eq]
    omega
  rw [decodeIo_spare hk ((spareGroup_iff c).2 (by omega)), hm]
  rfl

/-- A spare command word with bit 0 clear is an output. -/
theorem decodeIo_spareOut {k : Config} {c : Word} (hk : c ∈ k.spareXio)
    (hg : (0x04 ≤ c.toNat / 256 ∧ c.toNat / 256 ≤ 0x1F) ∨ (0x30 ≤ c.toNat / 256 ∧ c.toNat / 256 ≤ 0x3F) ∨
      (0x53 ≤ c.toNat / 256 ∧ c.toNat / 256 ≤ 0x7F)) : decodeIo k c = some (.out (.spareOut c)) := by
  have hm : c.msb = false := by
    rw [BitVec.msb_eq_decide, decide_eq_false_iff_not]
    omega
  rw [decodeIo_spare hk ((spareGroup_iff c).2 (by omega)), hm]
  rfl

/-- A page register command exists in each implemented group. -/
theorem pageCommand_of_group {k : Config} {x : Expanded} (hx : k.expanded = some x) {c : Word}
    (hg : (commandX c).toNat < x.groups.toNat) (i : IoCommand) : pageCommand k c i = some i := by
  simp [pageCommand, groupImplemented, hx, hg]

/-- The group byte and the fields X and Y of a page register command. -/
theorem pageFields {b : Byte} {g y : BitVec 4} {c : Word} (hc : c = b ++ g ++ y) :
    commandGroup c = b.toNat ∧ commandX c = g ∧ commandY c = y := by
  have hn : c.toNat = (b.toNat * 16 + g.toNat) * 16 + y.toNat := by
    rw [hc, toNat_append_eq, toNat_append_eq]
    rfl
  have hb := b.isLt
  have hg := g.isLt
  have hy := y.isLt
  refine ⟨?_, BitVec.eq_of_toNat_eq ?_, BitVec.eq_of_toNat_eq ?_⟩
  · rw [commandGroup_eq]
    omega
  · rw [commandX_toNat]
    omega
  · rw [commandY, BitVec.extractLsb'_toNat, Nat.shiftRight_zero]
    omega

section

variable {k : Config} {x : Expanded} {g y : BitVec 4} {c : Word} (hx : k.expanded = some x)
  (hg : g.toNat < x.groups.toNat)

include hx hg

theorem decodeIo_wipr (hc : c = 0x51#8 ++ g ++ y) : decodeIo k c = some (.out (.wipr g y)) := by
  obtain ⟨hb, rfl, rfl⟩ := pageFields hc
  simp [decodeIo, hb, pageCommand_of_group hx hg]

theorem decodeIo_wopr (hc : c = 0x52#8 ++ g ++ y) : decodeIo k c = some (.out (.wopr g y)) := by
  obtain ⟨hb, rfl, rfl⟩ := pageFields hc
  simp [decodeIo, hb, pageCommand_of_group hx hg]

theorem decodeIo_ripr (hc : c = 0xD1#8 ++ g ++ y) : decodeIo k c = some (.inp (.ripr g y)) := by
  obtain ⟨hb, rfl, rfl⟩ := pageFields hc
  simp [decodeIo, hb, pageCommand_of_group hx hg]

theorem decodeIo_ropr (hc : c = 0xD2#8 ++ g ++ y) : decodeIo k c = some (.inp (.ropr g y)) := by
  obtain ⟨hb, rfl, rfl⟩ := pageFields hc
  simp [decodeIo, hb, pageCommand_of_group hx hg]

end

/-! ## Which command words are implemented (40_io R302 to R305, R354, R373) -/

/-- The command words that a machine with the parameters `k` implements, listed by the option that each needs, as O58 does. -/
def Implemented (k : Config) (c : Word) : Prop :=
  c.toNat ≤ 0x03FF ∨ (0x8000 ≤ c.toNat ∧ c.toNat ≤ 0x83FF) ∨
  c ∈ [0x2000#16, 0x2001#16, 0x2002#16, 0x2003#16, 0x2004#16, 0x2005#16, 0x200E#16, 0xA000#16, 0xA004#16, 0xA00E#16,
    0xA00F#16] ∨
  (k.timers = true ∧
    c ∈ [0x4008#16, 0x4009#16, 0x400A#16, 0x400C#16, 0x400D#16, 0x400E#16, 0xC00A#16, 0xC00E#16]) ∨
  (k.ioic = true ∧ c ∈ [0xA001#16, 0xA002#16]) ∨ (k.discretes = true ∧ c ∈ [0x2008#16, 0xA008#16, 0xA009#16]) ∨
  (k.npuDiscrete = true ∧ c = 0x200A#16) ∨ (k.tpio = true ∧ c = 0xA00B#16) ∨ (k.mfsr.isSome = true ∧ c = 0xA00D#16) ∨
  (k.console = true ∧ c ∈ [0x4000#16, 0x4001#16, 0xC000#16, 0xC001#16]) ∨
  (k.rom.isSome = true ∧ c ∈ [0x4004#16, 0x4005#16]) ∨ (k.dma = true ∧ c ∈ [0x4006#16, 0x4007#16]) ∨
  (k.go = true ∧ c = 0x400B#16) ∨
  (k.memProtectRam = true ∧ (c = 0x4003#16 ∨ (0x5000 ≤ c.toNat ∧ c.toNat ≤ 0x507F) ∨
    (0xD000 ≤ c.toNat ∧ c.toNat ≤ 0xD07F))) ∨
  (∃ x, k.expanded = some x ∧ c.toNat / 256 ∈ [0x51, 0x52, 0xD1, 0xD2] ∧ c.toNat / 16 % 16 < x.groups.toNat) ∨
  (c ∈ k.spareXio ∧
    ((0x04 ≤ c.toNat / 256 % 128 ∧ c.toNat / 256 % 128 ≤ 0x1F) ∨
      (0x30 ≤ c.toNat / 256 % 128 ∧ c.toNat / 256 % 128 ≤ 0x3F) ∨
      (0x53 ≤ c.toNat / 256 % 128 ∧ c.toNat / 256 % 128 ≤ 0x7F)))

section

variable {k : Config} {c : Word}

/-- The group byte and the low byte make up the command word. -/
theorem command_eq {g l : Nat} (hg : commandGroup c = g) (hl : commandLow c = l) : c = BitVec.ofNat 16 (256 * g + l) := by
  rw [commandGroup_eq] at hg
  rw [commandLow_eq] at hl
  have := c.isLt
  apply BitVec.eq_of_toNat_eq
  rw [BitVec.toNat_ofNat]
  omega

theorem implemented_of_decodeGroup20 (hg : commandGroup c = 0x20) (h : decodeGroup20 k (commandLow c) ≠ none) :
    Implemented k c := by
  unfold decodeGroup20 at h
  split at h
  case h_10 => exact absurd rfl h
  all_goals obtain rfl := command_eq hg ‹_›
  case h_7 | h_8 => simp [Implemented, whenOption_ne_none.1 h]
  all_goals simp [Implemented]

theorem implemented_of_decodeGroupA0 (hg : commandGroup c = 0xA0) (h : decodeGroupA0 k (commandLow c) ≠ none) :
    Implemented k c := by
  unfold decodeGroupA0 at h
  split at h
  case h_11 => exact absurd rfl h
  all_goals obtain rfl := command_eq hg ‹_›
  case h_1 | h_4 | h_9 | h_10 => simp [Implemented]
  all_goals simp [Implemented, whenOption_ne_none.1 h]

theorem implemented_of_decodeGroup40 (hg : commandGroup c = 0x40) (h : decodeGroup40 k (commandLow c) ≠ none) :
    Implemented k c := by
  unfold decodeGroup40 at h
  split at h
  case h_15 => exact absurd rfl h
  all_goals
    obtain rfl := command_eq hg ‹_›
    simp [Implemented, whenOption_ne_none.1 h]

theorem implemented_of_decodeGroupC0 (hg : commandGroup c = 0xC0) (h : decodeGroupC0 k (commandLow c) ≠ none) :
    Implemented k c := by
  unfold decodeGroupC0 at h
  split at h
  case h_5 => exact absurd rfl h
  all_goals
    obtain rfl := command_eq hg ‹_›
    simp [Implemented, whenOption_ne_none.1 h]

theorem implemented_of_mprotCommand {i : IoCommand} (hg : commandGroup c = 0x50 ∨ commandGroup c = 0xD0)
    (h : mprotCommand k c i ≠ none) : Implemented k c := by
  rw [mprotCommand, whenOption_ne_none, Bool.and_eq_true, decide_eq_true_eq, commandLow_eq] at h
  obtain ⟨hk, hl⟩ := h
  rw [commandGroup_eq] at hg
  simp only [Implemented, hk, true_and]
  omega

theorem implemented_of_pageCommand {i : IoCommand} (hg : commandGroup c ∈ [0x51, 0x52, 0xD1, 0xD2])
    (h : pageCommand k c i ≠ none) : Implemented k c := by
  rw [pageCommand, whenOption_ne_none, Bool.and_eq_true, Option.isSome_iff_exists] at h
  obtain ⟨⟨x, hx⟩, hi⟩ := h
  have hlt : c.toNat / 16 % 16 < x.groups.toNat := by simpa [groupImplemented, hx, commandX_toNat] using hi
  rw [commandGroup_eq] at hg
  have hp : ∃ x, k.expanded = some x ∧ c.toNat / 256 ∈ [0x51, 0x52, 0xD1, 0xD2] ∧ c.toNat / 16 % 16 < x.groups.toNat :=
    ⟨x, hx, hg, hlt⟩
  simp only [Implemented, hp, true_or, or_true]

theorem implemented_of_spareCommand {i : IoCommand} (h : spareCommand k c i ≠ none) : Implemented k c := by
  rw [spareCommand, whenOption_ne_none, Bool.and_eq_true, List.contains_iff_mem, spareGroup_iff] at h
  obtain ⟨hg, hk⟩ := h
  simp only [Implemented, hk, true_and]
  omega

/-- What decodes is implemented: group by group. -/
theorem implemented_of_decodeIo (h : decodeIo k c ≠ none) : Implemented k c := by
  unfold decodeIo at h
  split at h
  case h_1 | h_2 | h_3 | h_4 | h_5 | h_6 | h_7 | h_8 =>
    have hg : c.toNat / 256 = _ := (commandGroup_eq c).symm.trans ‹_›
    unfold Implemented
    omega
  case h_9 hg => exact implemented_of_decodeGroup20 hg h
  case h_10 hg => exact implemented_of_decodeGroupA0 hg h
  case h_11 hg => exact implemented_of_decodeGroup40 hg h
  case h_12 hg => exact implemented_of_decodeGroupC0 hg h
  case h_13 hg => exact implemented_of_mprotCommand (.inl hg) h
  case h_14 hg => exact implemented_of_mprotCommand (.inr hg) h
  case h_15 hg | h_16 hg | h_17 hg | h_18 hg => exact implemented_of_pageCommand (by simp [hg]) h
  case h_19 => exact implemented_of_spareCommand h

/-- The default configuration has the timers and no other option. -/
theorem implemented_standard (h : Implemented Config.standard c) :
    c.toNat ≤ 0x03FF ∨ (0x8000 ≤ c.toNat ∧ c.toNat ≤ 0x83FF) ∨
      c ∈ [0x2000#16, 0x2001#16, 0x2002#16, 0x2003#16, 0x2004#16, 0x2005#16, 0x200E#16, 0xA000#16, 0xA004#16, 0xA00E#16,
        0xA00F#16, 0x4008#16, 0x4009#16, 0x400A#16, 0x400C#16, 0x400D#16, 0x400E#16, 0xC00A#16, 0xC00E#16] := by
  simp only [Implemented, Config.standard, Bool.false_eq_true, false_and, Option.isSome_none, reduceCtorEq, exists_false,
    List.not_mem_nil, or_false, true_and] at h
  rcases h with h | h | h | h
  · exact .inl h
  · exact .inr (.inl h)
  · exact .inr (.inr (List.mem_append_left _ h))
  · exact .inr (.inr (List.mem_append_right [0x2000#16, 0x2001#16, 0x2002#16, 0x2003#16, 0x2004#16, 0x2005#16, 0x200E#16,
      0xA000#16, 0xA004#16, 0xA00E#16, 0xA00F#16] h))

end

/-! ## XIO (40_io R300, R305) -/

section

variable {s : State} {ra rx : Reg} {addr : Word}

/-- In the state PS = 0 XIO performs the command that its operand word names. -/
theorem exec_xio (hps : psOf s.sw = 0x0#4) :
    exec (.xio ra rx addr) s = .next (performIo ra (daLong rx addr s) s) :=
  privileged_of_zero (.next (performIo ra (daLong rx addr s) s)) hps

theorem exec_xio_illegal (hps : psOf s.sw = 0x0#4) (h : decodeIo s.cfg (daLong rx addr s) = none) :
    exec (.xio ra rx addr) s = .next (raiseFault 5 s) := by
  rw [exec_xio hps, performIo, h]

theorem exec_xio_out {c : OutCommand} (hps : psOf s.sw = 0x0#4) (h : decodeIo s.cfg (daLong rx addr s) = some (.out c)) :
    exec (.xio ra rx addr) s = .next (outputEffect c (s.reg ra) s) := by
  rw [exec_xio hps, performIo, h]

theorem exec_xio_inp {c : InCommand} (hps : psOf s.sw = 0x0#4) (h : decodeIo s.cfg (daLong rx addr s) = some (.inp c)) :
    exec (.xio ra rx addr) s = .next ((inputEffect c s).2.setReg ra (inputEffect c s).1) := by
  rw [exec_xio hps, performIo, h]

end

/-- Settles O58: a word that is not implemented decodes to no command. -/
theorem standardCommandWordsAndIllegalOnes : Obligations.StandardCommandWordsAndIllegalOnes := by
  unfold Obligations.StandardCommandWordsAndIllegalOnes
  intro s ra rx addr hps
  have key : ¬Implemented s.cfg (daLong rx addr s) → exec (.xio ra rx addr) s = .next (raiseFault 5 s) := fun h =>
    exec_xio_illegal hps (not_not.1 fun hd => h (implemented_of_decodeIo hd))
  exact ⟨key, fun hk h => key fun hi => h (implemented_standard (hk ▸ hi))⟩

/-! ## The chain of VIO (40_io R380) -/

section

variable {s : State} {c0 vs r a : Word} {n : BitNo} {l : List BitNo}

theorem vioChain_cons_unselected (hb : bitAt vs n = false) : vioChain c0 vs r (n :: l) a s = vioChain c0 vs r l a s := by
  simp [vioChain, hb]

theorem vioChain_cons_illegal (hb : bitAt vs n = true) (hd : decodeIo s.cfg (c0 + BitVec.ofNat 16 n.val * r) = none) :
    vioChain c0 vs r (n :: l) a s = .error (.next (raiseFault 5 s)) := by
  simp [vioChain, hb, hd]

/-- An output command takes its data word from memory; the chain goes on when the word can be read. -/
theorem vioChain_cons_out {c : OutCommand} (hb : bitAt vs n = true)
    (hd : decodeIo s.cfg (c0 + BitVec.ofNat 16 n.val * r) = some (.out c)) :
    (∀ e, load a s = .error e → vioChain c0 vs r (n :: l) a s = .error e) ∧
      ∀ w u, load a s = .ok (w, u) →
        vioChain c0 vs r (n :: l) a s = vioChain c0 vs r l (a + 1) (outputEffect c w u) := by
  constructor
  · intro e he
    simp [vioChain, hb, hd, he]
  · intro w u hu
    simp [vioChain, hb, hd, hu]

/-- An input command puts its data word into memory; the chain goes on when the word can be stored. -/
theorem vioChain_cons_inp {c : InCommand} (hb : bitAt vs n = true)
    (hd : decodeIo s.cfg (c0 + BitVec.ofNat 16 n.val * r) = some (.inp c)) :
    (∀ e, vioInput c a s = .error e → vioChain c0 vs r (n :: l) a s = .error e) ∧
      ∀ t, vioInput c a s = .ok t → vioChain c0 vs r (n :: l) a s = vioChain c0 vs r l (a + 1) t := by
  constructor
  · intro e he
    simp [vioChain, hb, hd, he]
  · intro t ht
    simp [vioChain, hb, hd, ht]

theorem vioInput_of_turn_error {c : InCommand} {e : Out} (h : takeTurn s = .error e) : vioInput c a s = .error e := by
  simp [vioInput, h]

theorem vioInput_of_turn {c : InCommand} {u : State} (h : takeTurn s = .ok u) :
    vioInput c a s = store a (inputEffect c u).1 (inputEffect c u).2 := by simp [vioInput, h]

end

/-- The chain performs the commands of the bits that the vector select selects: by induction on the bit numbers. -/
theorem vioChain_runs (c0 vs r : Word) (l : List BitNo) : ∀ (a : Word) (s : State),
    VioRuns c0 r (l.filter fun n => bitAt vs n) a s (andThen (vioChain c0 vs r l a s) .next) := by
  induction l with
  | nil => exact fun a s => rfl
  | cons n l ih =>
    intro a s
    cases hb : bitAt vs n with
    | false =>
      rw [List.filter_cons_of_neg (by simp [hb]), vioChain_cons_unselected hb]
      exact ih a s
    | true =>
      rw [List.filter_cons_of_pos (by simp [hb])]
      refine ⟨fun hd => ?_, fun c hd => ⟨fun e he => ?_, fun w u hu => ?_⟩, fun c hd => ⟨fun e he => ?_, fun u hu =>
        ⟨fun e he => ?_, fun t ht => ?_⟩⟩⟩
      · rw [vioChain_cons_illegal hb hd]
        rfl
      · rw [(vioChain_cons_out hb hd).1 e he]
        rfl
      · rw [(vioChain_cons_out hb hd).2 w u hu]
        exact ih (a + 1) _
      · rw [(vioChain_cons_inp hb hd).1 e (vioInput_of_turn_error he)]
        rfl
      · rw [(vioChain_cons_inp hb hd).1 e ((vioInput_of_turn hu).trans he)]
        rfl
      · rw [(vioChain_cons_inp hb hd).2 t ((vioInput_of_turn hu).trans ht)]
        exact ih (a + 1) t

/-- The bits that a vector select with one bit selects. -/
theorem filter_bitAt_bitMask (n : BitNo) : ((List.finRange 16).filter fun m => bitAt (bitMask n) m) = [n] := by
  revert n
  decide

theorem filter_bitAt_zero : ((List.finRange 16).filter fun m => bitAt 0x0000#16 m) = [] := by decide

/-! ## VIO -/

/-- Reading an operand word leaves the general registers and the parameters as they were. -/
theorem load_keeps {a w : Word} {s u : State} (h : load a s = .ok (w, u)) : u.regs = s.regs ∧ u.cfg = s.cfg := by
  rw [takeTurn_keeps (load_ok h).1]
  exact ⟨rfl, rfl⟩

theorem load_wf {a w : Word} {s u : State} (h : load a s = .ok (w, u)) (hw : Memory.wf s.mem = true) :
    Memory.wf u.mem = true := takeTurn_wf (load_ok h).1 hw

theorem daLong_congr {s t : State} (h : t.regs = s.regs) (rx : Reg) (addr : Word) : daLong rx addr t = daLong rx addr s := by
  unfold daLong index State.reg
  rw [h]

/-- After its two header words VIO is its chain. -/
theorem exec_vio {s u v : State} {ra rx : Reg} {addr c0 vs : Word} (hps : psOf s.sw = 0x0#4)
    (hu : load (daLong rx addr s) s = .ok (c0, u)) (hv : load (daLong rx addr s + 1) u = .ok (vs, v)) :
    exec (.vio ra rx addr) s =
      andThen (vioChain c0 vs (s.reg ra) (List.finRange 16) (daLong rx addr s + 2) v) .next := by
  have hru := (load_keeps hu).1
  have hrv : v.regs = s.regs := (load_keeps hv).1.trans hru
  have hra : v.reg ra = s.reg ra := by rw [State.reg, hrv, State.reg]
  change execVio ra rx addr s = _
  rw [execVio, privileged_of_zero _ hps, withWord_of_load _ hu, daLong_congr hru, withWord_of_load _ hv,
    daLong_congr hrv, hra]
  rfl

/-- What an input command does to the state besides delivering its word. -/
theorem inputEffect_frame (c : InCommand) (s : State) : (inputEffect c s).2 = { s with
    ft := (inputEffect c s).2.ft, pi := (inputEffect c s).2.pi, ioic := (inputEffect c s).2.ioic,
    draws := (inputEffect c s).2.draws } := by
  cases c <;> rfl

/-- An input command does not look at the schedule. -/
theorem inputEffect_afterTurns (c : InCommand) (n : Nat) (s : State) :
    inputEffect c (afterTurns n s) = ((inputEffect c s).1, afterTurns n (inputEffect c s).2) := by
  cases c <;> rfl

/-- One word written at the address that an operand reference reaches. -/
theorem storesAt_writeWord {s t : State} {a v : Word} (hw : Memory.wf s.mem = true)
    (ht : t.mem = Memory.writeWord s.mem (physOf s a) v) : StoresAt a [v] s t := by
  have ha : a + BitVec.ofNat 16 0 = a := BitVec.add_zero a
  constructor
  · intro k x hx
    obtain ⟨rfl, rfl⟩ : k = 0 ∧ v = x := by cases k <;> simp_all
    rw [ht, ha, Memory.readWord_writeWord_same hw]
  · intro b hb
    rw [ht, Memory.readByte_writeWord hw, if_neg fun he => hb ⟨0, Nat.one_pos, .inr (ha.symm ▸ he)⟩,
      if_neg fun he => hb ⟨0, Nat.one_pos, .inl (ha.symm ▸ he)⟩]

/-- An input command changes nothing that a reference depends on. -/
theorem inputEffect_writable {c : InCommand} {a : Word} {v : State} (h : Writable v a) :
    Writable (inputEffect c v).2 a := by
  rw [inputEffect_frame]
  exact (refFault_congr (s := v) rfl rfl rfl rfl rfl _ _ _ _).trans h

theorem inputEffect_physOf (c : InCommand) (a : Word) (v : State) : physOf (inputEffect c v).2 a = physOf v a := by
  rw [inputEffect_frame]
  exact translate_congr rfl rfl _ _

theorem writable_afterTurns {n : Nat} {a : Word} {s : State} (h : Writable s a) : Writable (afterTurns n s) a :=
  (refFault_congr (s := s) (t := afterTurns n s) rfl rfl rfl rfl rfl _ _ _ _).trans h

theorem physOf_afterTurns (n : Nat) (a : Word) (s : State) : physOf (afterTurns n s) a = physOf s a :=
  translate_congr (s := s) (t := afterTurns n s) rfl rfl _ _

/-- The store of an input command of VIO whose two turns are quiet, to a word that may be written. -/
theorem store_inputEffect {c : InCommand} {a : Word} {v : State} (hw : Memory.wf v.mem = true) (hq : QuietFor 2 v)
    (ha : Writable v a) :
    ∃ t, store a (inputEffect c (afterTurns 1 v)).1 (inputEffect c (afterTurns 1 v)).2 = .ok t ∧
      t = { (inputEffect c v).2 with mem := t.mem, env := v.env.drop 2 } ∧ StoresAt a [(inputEffect c v).1] v t := by
  have henv : (inputEffect c v).2.env = v.env := by rw [inputEffect_frame]
  have hmem : (inputEffect c v).2.mem = v.mem := by rw [inputEffect_frame]
  have hq2 : QuietFor 2 (inputEffect c v).2 := by
    rw [QuietFor, henv]
    exact hq
  have hturn := takeTurn_of_quiet hq2.tail
  rw [afterTurns_afterTurns] at hturn
  have hstore := store_of_writable (inputEffect c v).1 hturn (writable_afterTurns (inputEffect_writable ha))
  rw [physOf_afterTurns, inputEffect_physOf] at hstore
  rw [inputEffect_afterTurns]
  refine ⟨_, hstore, ?_, storesAt_writeWord hw ?_⟩
  · simp [afterTurns, henv]
  · simp [afterTurns, hmem]

/-- Settles O60: the chain runs over the selected bits, and the two special cases are runs over no bit and over one. -/
theorem vioPerformsSelectedCommand : Obligations.VioPerformsSelectedCommand := by
  unfold Obligations.VioPerformsSelectedCommand
  intro s u v ra rx addr c0 vs hps hu hv
  have hrun := vioChain_runs c0 vs (s.reg ra) (List.finRange 16) (daLong rx addr s + 2) v
  have hcfg : v.cfg = s.cfg := (load_keeps hv).2.trans (load_keeps hu).2
  rw [← exec_vio hps hu hv] at hrun
  refine ⟨hrun, fun hz => ?_, fun n hn => ?_⟩
  · rw [hz, filter_bitAt_zero] at hrun
    exact hrun
  · rw [hn, filter_bitAt_bitMask] at hrun
    obtain ⟨hillegal, hout, hinp⟩ := hrun
    rw [hcfg] at hillegal hout hinp
    refine ⟨fun o w t hd hw => (hout o hd).2 w t hw, fun i hd hwf hq ha => ?_, hillegal⟩
    obtain ⟨t, hstore, ht⟩ := store_inputEffect (c := i) (load_wf hv (load_wf hu hwf)) hq ha
    exact ⟨t, ((hinp i hd).2 _ (takeTurn_of_quiet hq)).2 t hstore, ht⟩

/-! ## The output commands (40_io R310 to R317, R340 to R359) -/

/-- The bit number in a register is its value modulo 16 (40_io R315, decision D36). -/
theorem bitNumberOf_eq {w : Word} {n : BitNo} (h : n.val = w.toNat % 16) : bitNumberOf w = n := by
  apply Fin.ext
  rw [h, bitNumberOf]
  change (w.extractLsb' 0 4).toNat = _
  rw [BitVec.extractLsb'_toNat, Nat.shiftRight_zero]

theorem resetPending_eq {w : Word} {n : BitNo} (h : n.val = w.toNat % 16) (s : State) :
    resetPending w s = { s with pi := s.pi &&& ~~~bitMask n, ft := if n = 1 then 0x0000#16 else s.ft } := by
  simp only [resetPending, bitNumberOf_eq h, clearPending]
  split <;> rfl

theorem bitAt_or (x y : Word) (n : BitNo) : bitAt (x ||| y) n = (bitAt x n || bitAt y n) := BitVec.getLsbD_or

theorem bitAt_and_not (x y : Word) (n : BitNo) : bitAt (x &&& ~~~y) n = (bitAt x n && !bitAt y n) := by
  simp [bitAt, Nat.lt_succ_of_le (Nat.sub_le 15 n.val)]

/-- Settles O55: each command word decodes to its command, whose effect is the one stated. -/
theorem xioMandatoryOutputs : Obligations.XioMandatoryOutputs := by
  unfold Obligations.XioMandatoryOutputs
  intro s ra rx addr hps
  refine ⟨fun hc => ?_, fun hc => ?_, fun hc => ?_, fun hc => ?_, fun hc n hn => ?_, fun hc => ?_, fun hc => ?_⟩
  · exact exec_xio_out (c := .smk) hps (hc ▸ rfl)
  · exact exec_xio_out (c := .clir) hps (hc ▸ rfl)
  · refine ⟨_, exec_xio_out (c := .enbl) hps (hc ▸ rfl), ?_, fun hp => by simp [outputEffect, enableInterrupts, hp]⟩
    simp only [outputEffect, enableInterrupts]
    split
    next hp => rw [← hp]
    next => rfl
  · exact exec_xio_out (c := .dsbl) hps (hc ▸ rfl)
  · rw [← resetPending_eq hn]
    exact exec_xio_out (c := .rpi) hps (hc ▸ rfl)
  · exact ⟨_, exec_xio_out (c := .spi) hps (hc ▸ rfl), rfl, fun n => ⟨bitAt_or _ _ n, bitAt_and_not _ _ n⟩⟩
  · have ho : exec (.xio ra rx addr) s = .next (loadSW (s.reg ra) s) := exec_xio_out (c := .wsw) hps (hc ▸ rfl)
    rw [ho, loadSW_eq]
    exact ⟨fun hg => by rw [if_pos hg], fun hg => by rw [if_neg (by simp [hg])]⟩

/-! ## The input commands (40_io R318 to R322, R360 to R369) -/

/-- An input command puts its word into RA; the rest of the state is what the command leaves. -/
theorem xio_input_completes {s u : State} {ra rx : Reg} {addr v : Word} {c : InCommand} (hps : psOf s.sw = 0x0#4)
    (hd : decodeIo s.cfg (daLong rx addr s) = some (.inp c)) (he : inputEffect c s = (v, u)) :
    Completes (exec (.xio ra rx addr) s) fun t => t = { u with regs := t.regs } ∧ KeepsRegs [ra] s t ∧ t.reg ra = v := by
  have hregs : u.regs = s.regs := by
    rw [show u = (inputEffect c s).2 by rw [he], inputEffect_frame]
  refine ⟨u.setReg ra v, ?_, rfl, fun r hr => ?_, State.reg_setReg_same u ra v⟩
  · rw [exec_xio_inp hps hd, he]
  · rw [State.reg_setReg_other u v (mt List.mem_singleton.2 hr), State.reg, hregs, State.reg]

/-- A property that follows from the one of the next state. -/
theorem Completes.imp {o : Out} {P Q : State → Prop} (h : Completes o P) (hpq : ∀ t, P t → Q t) : Completes o Q := by
  obtain ⟨t, ho, ht⟩ := h
  exact ⟨t, ho, hpq t ht⟩

/-- A programmed input or a spare one: the word is open, a draw is used up. -/
theorem xio_deviceInput_completes {s : State} {ra rx : Reg} {addr : Word} {c : InCommand} (hps : psOf s.sw = 0x0#4)
    (hd : decodeIo s.cfg (daLong rx addr s) = some (.inp c)) (he : inputEffect c s = drawInput (daLong rx addr s) s) :
    Completes (exec (.xio ra rx addr) s) fun t => t = { s with regs := t.regs, draws := t.draws } ∧ KeepsRegs [ra] s t :=
  (xio_input_completes hps hd he).imp fun t ⟨ht, hk, _⟩ => ⟨by rw [ht], hk⟩

/-- Settles O56: each command word decodes to its command, in the configuration that has it. -/
theorem xioInputsAndProgrammedOutput : Obligations.XioInputsAndProgrammedOutput := by
  unfold Obligations.XioInputsAndProgrammedOutput
  refine ⟨fun s ra rx addr hps => ⟨fun hc => ?_, fun hc => ?_, fun hc => ?_, fun hc => ?_, fun hl hh => ?_,
    fun hk hg => ?_, fun hc => ?_⟩, fun s ra rx addr hps => ⟨fun hk => ⟨fun hc => ?_, fun hc => ?_⟩,
    fun hk => ⟨fun hc => ?_, fun hc => ?_⟩, fun hk => ⟨fun hc => ?_, fun hc => ?_⟩, fun hk hc => ?_, fun hk hc => ?_,
    fun hk => ⟨fun hc => ?_, fun hc => ?_⟩, fun hk n hc => ?_, fun x g y hx hg => ⟨fun hc => ?_, fun hc => ?_⟩⟩⟩
  · exact xio_input_completes (c := .rmk) hps (hc ▸ rfl) rfl
  · exact xio_input_completes (c := .rpir) hps (hc ▸ rfl) rfl
  · exact xio_input_completes (c := .rsw) hps (hc ▸ rfl) rfl
  · exact xio_input_completes (c := .rcfr) hps (hc ▸ rfl) rfl
  · exact xio_deviceInput_completes hps (decodeIo_pi s.cfg hl hh) rfl
  · exact xio_deviceInput_completes hps (decodeIo_spareIn hk hg) rfl
  · exact ⟨_, exec_xio_out hps (decodeIo_po s.cfg hc), rfl⟩
  · exact xio_input_completes (c := .ita) hps (decodeIo_of_option hc hk rfl) rfl
  · exact xio_input_completes (c := .itb) hps (decodeIo_of_option hc hk rfl) rfl
  · exact (xio_input_completes (c := .ric1) hps (decodeIo_of_option hc hk rfl) rfl).imp fun t ⟨ht, hr, hv⟩ =>
      ⟨ht, hr, by rw [hv, BitVec.toNat_setWidth_of_le (by decide)]⟩
  · exact (xio_input_completes (c := .ric2) hps (decodeIo_of_option hc hk rfl) rfl).imp fun t ⟨ht, hr, hv⟩ =>
      ⟨ht, hr, by rw [hv, BitVec.toNat_setWidth_of_le (by decide)]⟩
  · exact xio_input_completes (c := .rdor) hps (decodeIo_of_option hc hk rfl) rfl
  · exact xio_input_completes (c := .rdi) hps (decodeIo_of_option hc hk rfl) rfl
  · exact xio_input_completes (c := .tpio) hps (decodeIo_of_option hc hk rfl) rfl
  · exact xio_input_completes (c := .rmfs) hps (decodeIo_of_option hc hk rfl) rfl
  · exact xio_input_completes (c := .ci) hps (decodeIo_of_option hc hk rfl) rfl
  · exact xio_input_completes (c := .rcs) hps (decodeIo_of_option hc hk rfl) rfl
  · have hn : ((daLong rx addr s).extractLsb' 0 7).toFin = n := Fin.ext (by rw [mprotNumber_val]; omega)
    exact xio_input_completes hps (decodeIo_rmp hk (by omega) (by omega)) (by rw [inputEffect, hn])
  · exact xio_input_completes hps (decodeIo_ripr hx hg hc) rfl
  · exact xio_input_completes hps (decodeIo_ropr hx hg hc) rfl

/-! ## The memory protect RAM and the page file (40_io R347, R352, R353) -/

/-- A word of a register file after a write of one of its words. -/
theorem vector_get_set {α : Type} {n : Nat} (p : Vector α n) (i j : Fin n) (v : α) :
    (p.set i.val v i.isLt).get j = if j = i then v else p.get j := by
  simp only [Vector.get_eq_getElem, Vector.getElem_set, Fin.ext_iff, eq_comm]

theorem vector_get_set_toFin {α : Type} (p : Vector α 16) (x y : BitVec 4) (v : α) :
    (p.set x.toNat v x.isLt).get y.toFin = if y = x then v else p.get y.toFin :=
  (vector_get_set p x.toFin y.toFin v).trans (if_congr BitVec.toFin_inj rfl rfl)

/-- A page register after a write of one: the kind, the group and the number select it. -/
theorem pageRegister_writePage (kind kind' : RefKind) (g y g' y' : BitVec 4) (w : Word) (s : State) :
    pageRegister (writePage kind g y w s) kind' g' y' =
      if kind' = kind ∧ g' = g ∧ y' = y then pageWord s.cfg w else pageRegister s kind' g' y' := by
  by_cases hg : g' = g
  · subst hg
    cases kind <;> cases kind' <;> simp [pageRegister, writePage, PageGroup.setOf, vector_get_set_toFin]
  · simp [pageRegister, writePage, vector_get_set_toFin, hg]

/-- What a page register stores in a machine with page registers. -/
theorem pageWord_of_expanded {k : Config} {x : Expanded} (hx : k.expanded = some x) (w : Word) :
    pageWord k w = if x.lockKey = true then w &&& 0xF8FF#16 else w &&& 0x08FF#16 := by rw [pageWord, hx]

/-! ## The console (40_io R342, R343) -/

theorem consolePresent_of_connected {s : State} (hk : s.cfg.console = true) (hp : s.console.connected = true) :
    consolePresent s = true := by rw [consolePresent, hk, hp, Bool.and_self]

theorem consolePresent_of_not_connected {s : State} (hp : s.console.connected = false) : consolePresent s = false := by
  rw [consolePresent, hp, Bool.and_false]

/-- Without a console CO and CLC do nothing. -/
theorem outputEffect_console_of_not_connected {s : State} (hp : s.console.connected = false) (w : Word) :
    outputEffect .co w s = s ∧ outputEffect .clc w s = s := by
  simp [outputEffect, consoleOutput, consoleClear, consolePresent_of_not_connected hp]

/-- Settles O57: each command word decodes to its command, in the configuration that has it. -/
theorem xioOptionalOutputs : Obligations.XioOptionalOutputs := by
  unfold Obligations.XioOptionalOutputs
  refine fun s ra rx addr hps => ⟨fun hk => ⟨fun hc => ?_, fun hc => ?_, fun hc => ?_, fun hc => ?_, fun hc => ?_,
    fun hc => ?_⟩, fun hk => ⟨fun hc => ?_, fun hc => ?_⟩, fun hk => ⟨fun hc => ?_, fun hc => ?_⟩, fun hk hc => ?_,
    fun hk hc => ?_, fun hk hc => ?_, fun hk hp => ⟨fun hc => ?_, fun hc => ?_⟩, fun hk hp hc => ?_, fun hk hg => ?_,
    fun hk => ⟨fun hc => ?_, fun hl hh => ?_⟩, fun x g y hx hg => ⟨fun hc => ?_, fun hc => ?_⟩⟩
  · exact exec_xio_out (c := .tas) hps (decodeIo_of_option hc hk rfl)
  · exact exec_xio_out (c := .tah) hps (decodeIo_of_option hc hk rfl)
  · exact exec_xio_out (c := .ota) hps (decodeIo_of_option hc hk rfl)
  · exact exec_xio_out (c := .tbs) hps (decodeIo_of_option hc hk rfl)
  · exact exec_xio_out (c := .tbh) hps (decodeIo_of_option hc hk rfl)
  · exact exec_xio_out (c := .otb) hps (decodeIo_of_option hc hk rfl)
  · exact exec_xio_out (c := .esur) hps (decodeIo_of_option hc hk rfl)
  · exact exec_xio_out (c := .dsur) hps (decodeIo_of_option hc hk rfl)
  · exact exec_xio_out (c := .dmae) hps (decodeIo_of_option hc hk rfl)
  · exact exec_xio_out (c := .dmad) hps (decodeIo_of_option hc hk rfl)
  · exact exec_xio_out (c := .od) hps (decodeIo_of_option hc hk rfl)
  · exact exec_xio_out (c := .rns) hps (decodeIo_of_option hc hk rfl)
  · exact exec_xio_out (c := .go) hps (decodeIo_of_option hc hk rfl)
  · rw [exec_xio_out (c := .co) hps (decodeIo_of_option hc hk rfl), outputEffect, consoleOutput,
      if_pos (consolePresent_of_connected hk hp)]
    rfl
  · rw [exec_xio_out (c := .clc) hps (decodeIo_of_option hc hk rfl), outputEffect, consoleClear,
      if_pos (consolePresent_of_connected hk hp)]
  · obtain ⟨hco, hclc⟩ := outputEffect_console_of_not_connected hp (s.reg ra)
    rcases hc with hc | hc
    · rw [exec_xio_out (c := .co) hps (decodeIo_of_option hc hk rfl), hco]
    · rw [exec_xio_out (c := .clc) hps (decodeIo_of_option hc hk rfl), hclc]
  · exact exec_xio_out (c := .spareOut _) hps (decodeIo_spareOut hk hg)
  · exact exec_xio_out (c := .mpen) hps (decodeIo_of_option hc hk rfl)
  · refine ⟨_, exec_xio_out hps (decodeIo_lmp hk (by omega) (by omega)), rfl, fun n => ?_⟩
    have hn : n = ((daLong rx addr s).extractLsb' 0 7).toFin ↔ n.val = (daLong rx addr s).toNat - 0x5000 := by
      rw [Fin.ext_iff, mprotNumber_val]
      omega
    exact (vector_get_set s.mprot _ n (s.reg ra)).trans (if_congr hn rfl rfl)
  · refine ⟨_, exec_xio_out hps (decodeIo_wipr hx hg hc), rfl, fun kind g' y' => ?_⟩
    rw [← pageWord_of_expanded hx]
    exact pageRegister_writePage .instr kind g y g' y' _ s
  · refine ⟨_, exec_xio_out hps (decodeIo_wopr hx hg hc), rfl, fun kind g' y' => ?_⟩
    rw [← pageWord_of_expanded hx]
    exact pageRegister_writePage .oper kind g y g' y' _ s

end Sys2Proof.Machine

/-! # The bit instructions (41_bit)

The bits of the words that set and reset make, what writing one register or one memory word completes with, and the two
statements about the family. -/

namespace Sys2Proof.Machine

/-! ## One bit of a word (41_bit R400, R401, R404) -/

theorem bitAt_bitMask (n m : BitNo) : bitAt (bitMask n) m = decide (m = n) := by
  revert n m
  decide

theorem bitAt_withBit (x : Word) (n m : BitNo) : bitAt (withBit x n) m = (decide (m = n) || bitAt x m) := by
  rw [withBit, bitAt_or, bitAt_bitMask, Bool.or_comm]

theorem bitAt_withoutBit (x : Word) (n m : BitNo) : bitAt (withoutBit x n) m = (decide (m ≠ n) && bitAt x m) := by
  rw [withoutBit, bitAt_and_not, bitAt_bitMask, Bool.and_comm, decide_not]

/-- CS of a bit test, its three values written out. -/
theorem csBit_eq (x : Word) (n : BitNo) :
    csBit x n = if bitAt x n = false then 0b0010#4 else if n = 0 then 0b0001#4 else 0b0100#4 := by
  unfold csBit
  cases bitAt x n with
  | false => rfl
  | true =>
    rw [if_pos rfl, if_neg (show ¬true = false from nofun)]
    exact if_congr (Fin.ext_iff (b := 0)).symm rfl rfl

theorem csBit_of_zero {x : Word} {n : BitNo} (h : bitAt x n = false) : csBit x n = 0b0010#4 := by
  rw [csBit_eq, if_pos h]

/-! ## A bit of a register (41_bit R401, R404, R411, R412) -/

theorem completes_setReg (s : State) (rb : Reg) (v : Word) :
    Completes (.next (s.setReg rb v)) fun t => t = { s with regs := t.regs } ∧ KeepsRegs [rb] s t ∧ t.reg rb = v :=
  ⟨_, rfl, rfl, fun _ hr => State.reg_setReg_other s v (mt List.mem_singleton.2 hr), State.reg_setReg_same s rb v⟩

theorem completes_setReg_withBit (s : State) (rb : Reg) (n m : BitNo) :
    Completes (.next (s.setReg rb (withBit (s.reg rb) n))) fun t => t = { s with regs := t.regs } ∧
      KeepsRegs [rb] s t ∧ bitAt (t.reg rb) m = (decide (m = n) || bitAt (s.reg rb) m) :=
  (completes_setReg s rb _).imp fun _ ⟨ht, hkeeps, hv⟩ => ⟨ht, hkeeps, hv ▸ bitAt_withBit (s.reg rb) n m⟩

theorem completes_setReg_withoutBit (s : State) (rb : Reg) (n m : BitNo) :
    Completes (.next (s.setReg rb (withoutBit (s.reg rb) n))) fun t => t = { s with regs := t.regs } ∧
      KeepsRegs [rb] s t ∧ bitAt (t.reg rb) m = (decide (m ≠ n) && bitAt (s.reg rb) m) :=
  (completes_setReg s rb _).imp fun _ ⟨ht, hkeeps, hv⟩ => ⟨ht, hkeeps, hv ▸ bitAt_withoutBit (s.reg rb) n m⟩

/-! ## A word read and written back (20_memory R228) -/

section
variable {s u v : State} {a d : Word}

/-- The word written back is a function of the word read; it is written in the memory that the turn between the two
references left. -/
theorem updateWord_completes (f : Word → Word) (hw : Memory.wf s.mem = true) (hl : load a s = .ok (d, u))
    (ht : takeTurn u = .ok v) (ha : Writable v a) : Completes (updateWord a f s) (StoreResult a [f d] v) := by
  rw [updateWord, withWord_of_load _ hl, storeAll, storeWords, store_of_writable (f d) ht ha]
  exact ⟨_, rfl, rfl, storesAt_writeWord (takeTurn_wf ht (load_wf hl hw)) rfl⟩

theorem updateWord_withBit_completes (n : BitNo) (hw : Memory.wf s.mem = true) (hl : load a s = .ok (d, u))
    (ht : takeTurn u = .ok v) (ha : Writable v a) :
    Completes (updateWord a (fun x => withBit x n) s) fun t => ∃ w, StoreResult a [w] v t ∧
      ∀ m : BitNo, bitAt w m = (decide (m = n) || bitAt d m) :=
  (updateWord_completes _ hw hl ht ha).imp fun _ hs => ⟨_, hs, bitAt_withBit d n⟩

theorem updateWord_withoutBit_completes (n : BitNo) (hw : Memory.wf s.mem = true) (hl : load a s = .ok (d, u))
    (ht : takeTurn u = .ok v) (ha : Writable v a) :
    Completes (updateWord a (fun x => withoutBit x n) s) fun t => ∃ w, StoreResult a [w] v t ∧
      ∀ m : BitNo, bitAt w m = (decide (m ≠ n) && bitAt d m) :=
  (updateWord_completes _ hw hl ht ha).imp fun _ hs => ⟨_, hs, bitAt_withoutBit d n⟩

end

/-! ## The indirect forms, once the pointer word is read (41_bit R403, R406, R409) -/

section
variable {s u : State} {n : BitNo} {rx : Reg} {addr a : Word}

theorem exec_sbi_of_pointer (h : daIndirect rx addr s = .ok (a, u)) :
    exec (.sbi n rx addr) s = updateWord a (fun x => withBit x n) u :=
  withPointer_of_load (fun a u => updateWord a (fun x => withBit x n) u) h

theorem exec_rbi_of_pointer (h : daIndirect rx addr s = .ok (a, u)) :
    exec (.rbi n rx addr) s = updateWord a (fun x => withoutBit x n) u :=
  withPointer_of_load (fun a u => updateWord a (fun x => withoutBit x n) u) h

theorem exec_tbi_of_pointer (h : daIndirect rx addr s = .ok (a, u)) :
    exec (.tbi n rx addr) s = testWord a n u :=
  withPointer_of_load (fun a u => testWord a n u) h

end

/-- Settles O29: the register forms write one register, the memory forms write back the word they read with one bit set
or reset. -/
theorem bitSetAndClear : Obligations.BitSetAndClear := by
  unfold Obligations.BitSetAndClear
  refine ⟨fun s n ra rb m c hc => ⟨?_, ?_, ?_, ?_⟩, fun s s0 u v n rx addr a d hw hl ht ha => ⟨fun hs hda => ?_,
    fun hp => ?_⟩⟩
  · exact completes_setReg_withBit s rb n m
  · exact completes_setReg_withoutBit s rb n m
  · rw [← bitNumberOf_eq hc]
    exact completes_setReg_withBit s rb _ m
  · rw [← bitNumberOf_eq hc]
    exact completes_setReg_withoutBit s rb _ m
  · subst hs hda
    exact ⟨updateWord_withBit_completes n hw hl ht ha, updateWord_withoutBit_completes n hw hl ht ha⟩
  · have hw0 : Memory.wf s0.mem = true := load_wf hp hw
    rw [exec_sbi_of_pointer hp, exec_rbi_of_pointer hp]
    exact ⟨updateWord_withBit_completes n hw0 hl ht ha, updateWord_withoutBit_completes n hw0 hl ht ha⟩

/-! ## The tests (41_bit R407 to R410, R413) -/

theorem completes_setCS (cs : BitVec 4) (s : State) : Completes (.next (setCS cs s)) (StatusResult cs s) :=
  ⟨_, rfl, rfl⟩

theorem testWord_withWordAt (a : Word) (n : BitNo) (s : State) :
    WithWordAt a s (testWord a n s) fun d => StatusResult (csBit d n) := by
  intro d u hl
  rw [testWord, withWord_of_load _ hl]
  exact completes_setCS _ u

/-- A write of CS changes nothing that an operand reference depends on. -/
theorem writable_setCS {cs : BitVec 4} {a : Word} {s : State} (h : Writable s a) : Writable (setCS cs s) a := by
  rw [Writable, operAccess_setCS]
  exact (refFault_congr (s := s) rfl rfl rfl rfl rfl _ _ _ _).trans h

theorem physOf_setCS (cs : BitVec 4) (a : Word) (s : State) : physOf (setCS cs s) a = physOf s a := by
  rw [physOf, operAccess_setCS]
  exact translate_congr rfl rfl _ _

/-- A store with no turn before it, after a write of CS: memory and CS change, in the same turn. -/
theorem storeNow_setCS_completes (cs : BitVec 4) {a : Word} (v : Word) {s : State} (hw : Memory.wf s.mem = true)
    (ha : Writable s a) :
    Completes (andThen (storeNow a v (setCS cs s)) .next) (StoreStatusResult a [v] cs False s) := by
  rw [storeNow_of_writable v (writable_setCS ha), physOf_setCS]
  exact ⟨_, rfl, rfl, storesAt_writeWord hw rfl, statusRest_withCS s.sw cs, csOf_withCS s.sw cs,
    False.elim, fun _ => rfl⟩

/-- TSB once its word is read: the turn before the read left the registers, so the word is written where it was read. -/
theorem exec_tsb_of_load {s u : State} {n : BitNo} {rx : Reg} {addr d : Word}
    (hl : load (daLong rx addr s) s = .ok (d, u)) :
    exec (.tsb n rx addr) s = if bitAt d n then .next (setCS (csBit d n) u) else
      andThen (storeNow (daLong rx addr s) (withBit d n) (setCS (csBit d n) u)) .next := by
  change execTsb n rx addr s = _
  rw [execTsb, withWord_of_load _ hl, daLong_congr (load_keeps hl).1]

/-- Settles O30: every form ends in the write of CS that `csBit` gives; TSB stores in the
state it read in, with no turn between. -/
theorem bitTestsSetStatus : Obligations.BitTestsSetStatus := by
  unfold Obligations.BitTestsSetStatus
  intro s n
  simp only [← csBit_eq]
  refine ⟨fun rb => ?_, fun ra rb c hc => ?_, fun rx addr => ?_, fun rx addr a u hp => ?_,
    fun rx addr d u hl => ⟨fun hone => ?_, fun hzero hw ha => ?_⟩⟩
  · exact completes_setCS _ s
  · rw [← bitNumberOf_eq hc]
    exact completes_setCS _ s
  · exact testWord_withWordAt _ n s
  · rw [exec_tbi_of_pointer hp]
    exact testWord_withWordAt a n u
  · rw [exec_tsb_of_load hl, if_pos hone]
    exact completes_setCS _ u
  · rw [exec_tsb_of_load hl, if_neg (Bool.eq_false_iff.1 hzero), csBit_of_zero hzero]
    exact (storeNow_setCS_completes _ _ (load_wf hl hw) ha).imp fun _ hs => ⟨_, hs, bitAt_withBit d n⟩

end Sys2Proof.Machine

/-! # The shift instructions (42_shift)

The shifts and rotations of the model as exact numbers, what a result in a register or a register pair completes with, and
the two statements about the family. -/

namespace Sys2Proof.Machine

/-! ## Shifts and rotations as exact numbers (42_shift R420) -/

section
variable {w : Nat} (x : BitVec w)

theorem shiftLeft_eq_shiftedLeft (n : Nat) : x <<< n = shiftedLeft w x n := by
  apply BitVec.eq_of_toNat_eq
  rw [BitVec.toNat_shiftLeft, shiftedLeft, BitVec.toNat_ofNat, Nat.shiftLeft_eq]

theorem ushiftRight_eq_shiftedRight (n : Nat) : x >>> n = shiftedRight w x n := by
  rw [shiftedRight, ← Nat.shiftRight_eq_div_pow, ← BitVec.toNat_ushiftRight, BitVec.ofNat_toNat, BitVec.setWidth_eq]

theorem sshiftRight_eq_shiftedArithmetic (n : Nat) : x.sshiftRight n = shiftedArithmetic w x n := by
  rw [shiftedArithmetic, Int.fdiv_eq_ediv_of_nonneg _ (by positivity), BitVec.sshiftRight_eq, Int.shiftRight_eq_div_pow,
    Nat.cast_pow, Nat.cast_ofNat]

/-- The bits a rotation moves left and those it moves to the right end occupy different positions, so its two parts add up. -/
theorem shiftLeft_or_ushiftRight (n : Nat) (hn : n ≤ w) : x <<< n ||| x >>> (w - n) = rotatedLeft w x n := by
  have hdisjoint : x <<< n &&& x >>> (w - n) = 0#w := by
    ext i hi
    by_cases h : i < n
    · simp [h]
    · simp [show w ≤ w - n + i by omega]
  rw [← BitVec.add_eq_or_of_and_eq_zero _ _ hdisjoint, shiftLeft_eq_shiftedLeft, ushiftRight_eq_shiftedRight, shiftedLeft,
    shiftedRight, rotatedLeft, BitVec.ofNat_add]

theorem rotatedLeft_zero : rotatedLeft w x 0 = x := by
  rw [← shiftLeft_or_ushiftRight x 0 (Nat.zero_le w), Nat.sub_zero, BitVec.shiftLeft_zero,
    BitVec.ushiftRight_eq_zero (Nat.le_refl w), BitVec.or_zero]

theorem rotatedLeft_width : rotatedLeft w x w = x := by
  rw [← shiftLeft_or_ushiftRight x w (Nat.le_refl w)]
  simp

theorem rotateLeft_eq_rotatedLeft {n : Nat} (hn : n ≤ w) : rotateLeft x n = rotatedLeft w x n := by
  rcases Nat.lt_or_eq_of_le hn with hlt | rfl
  · rw [rotateLeft, Nat.mod_eq_of_lt hlt, shiftLeft_or_ushiftRight x n hn]
  · rw [rotateLeft, Nat.mod_self, shiftLeft_or_ushiftRight x 0 (Nat.zero_le n), rotatedLeft_zero, rotatedLeft_width]

/-- A right rotation is the left rotation by the remaining positions. -/
theorem rotatedRight_eq_rotatedLeft {n : Nat} (hn : n ≤ w) : rotatedRight w x n = rotatedLeft w x (w - n) := by
  rw [rotatedRight, rotatedLeft, Nat.sub_sub_self hn, Nat.add_comm]

theorem rotateRight_eq_rotatedRight {n : Nat} (hn : n ≤ w) : rotateRight x n = rotatedRight w x n := by
  rw [rotatedRight_eq_rotatedLeft x hn, ← rotateLeft_eq_rotatedLeft x (Nat.sub_le w n), rotateRight, rotateLeft, rotateLeft,
    Nat.mod_mod]
  rcases Nat.lt_or_eq_of_le hn with hlt | rfl
  · rw [Nat.mod_eq_of_lt hlt]
  · rw [Nat.mod_self, Nat.sub_zero, Nat.mod_self, Nat.sub_self, Nat.zero_mod]

theorem shiftedLeft_zero : shiftedLeft w x 0 = x := by
  rw [← shiftLeft_eq_shiftedLeft, BitVec.shiftLeft_zero]

/-- The model's shift by a signed count leaves a count of 0 aside, the statement's one takes it to the left. -/
theorem signedShift_eq_shiftedBy {left right left' right' : BitVec w → Nat → BitVec w} {n : Int}
    (hn : -(w : Int) ≤ n ∧ n ≤ w) (hl : ∀ k ≤ w, left x k = left' x k) (hr : ∀ k ≤ w, right x k = right' x k)
    (hz : left' x 0 = x) : signedShift left right x n = shiftedBy left' right' x n := by
  obtain ⟨hlo, hhi⟩ := hn
  unfold signedShift shiftedBy
  rcases lt_trichotomy n 0 with hneg | rfl | hpos
  · rw [if_neg hneg.not_gt, if_pos hneg, if_neg hneg.not_ge, hr _ (by omega)]
  · rw [if_neg (lt_irrefl _), if_neg (lt_irrefl _), if_pos (le_refl _), Int.toNat_zero, hz]
  · rw [if_pos hpos, if_pos hpos.le, hl _ (by omega)]

theorem outsideSigned_iff (m : Int) : outsideSigned w m = true ↔ Unrepresentable w m := by
  rw [outsideSigned, Unrepresentable, Bool.or_eq_true, decide_eq_true_iff, decide_eq_true_iff, Int.sub_one_lt_iff]

theorem leftOverflow_iff (n : Int) :
    leftOverflow x n = true ↔ 0 < n ∧ Unrepresentable w (x.toInt * 2 ^ n.toNat) := by
  rw [leftOverflow, Bool.and_eq_true, decide_eq_true_iff, shiftOverflow, outsideSigned_iff]

theorem noOverflow_iff (n : Int) : noOverflow x n = true ↔ False := by
  simp [noOverflow]

end

/-! ## A result with its CS and its request (42_shift R420, R429) -/

theorem frame_raiseIf_setCS {rs : List Reg} {s u : State} (hu : u = { s with regs := u.regs }) (hk : KeepsRegs rs s u)
    (c : Bool) (n : BitNo) (cs : BitVec 4) : Frame rs s (raiseIf c n (setCS cs u)) := by
  rw [raiseIf_eq, hu]
  exact ⟨rfl, hk, statusRest_withCS s.sw cs⟩

theorem pends_raiseIf {c : Bool} {p : Prop} (hp : c = true ↔ p) (n : BitNo) {s u : State} (hu : u.pi = s.pi) :
    Pends n p s (raiseIf c n u) := by
  rw [raiseIf_eq, Pends, ← hp, ← hu]
  exact ⟨fun h => if_pos h, fun h => if_neg h⟩

theorem keepsRegs_setReg (s : State) (ra : Reg) (v : Word) : KeepsRegs [ra] s (s.setReg ra v) :=
  fun _ hr => State.reg_setReg_other s v (mt List.mem_singleton.2 hr)

theorem keepsRegs_setPair (s : State) (ra : Reg) (v : DWord) : KeepsRegs [ra, ra + 1] s (s.setPair ra v) := by
  intro r hr
  obtain ⟨hne, hne'⟩ : r ≠ ra ∧ r ≠ ra + 1 := by simpa using hr
  rw [State.reg_setPair, if_neg hne', if_neg hne]

/-- A register, CS and a conditional fixed point overflow written: all that a result in one register changes. -/
theorem wordResult_of_write (s : State) (ra : Reg) (v : Word) (cs : BitVec 4) {c : Bool} {p : Prop} (hp : c = true ↔ p) :
    WordResult ra v cs p s (raiseIf c fixedOverflow (setCS cs (s.setReg ra v))) := by
  refine ⟨frame_raiseIf_setCS rfl (keepsRegs_setReg s ra v) c fixedOverflow cs, ?_, ?_, pends_raiseIf hp _ rfl⟩
  · rw [raiseIf_eq]
    exact State.reg_setReg_same s ra v
  · rw [raiseIf_eq]
    exact csOf_withCS s.sw cs

/-- The same for a register pair. -/
theorem pairResult_of_write (s : State) (ra : Reg) (v : DWord) (cs : BitVec 4) {c : Bool} {p : Prop} (hp : c = true ↔ p) :
    PairResult ra v cs p s (raiseIf c fixedOverflow (setCS cs (s.setPair ra v))) := by
  refine ⟨frame_raiseIf_setCS rfl (keepsRegs_setPair s ra v) c fixedOverflow cs, ?_, ?_, pends_raiseIf hp _ rfl⟩
  · rw [raiseIf_eq]
    exact State.pair_setPair s ra v
  · rw [raiseIf_eq]
    exact csOf_withCS s.sw cs

/-! ## The shifts by a constant (42_shift R421 to R428) -/

theorem shiftWord_completes {f : Word → Nat → Word} {rb : Reg} {n : Nat} {s : State} {v : Word} (hv : f (s.reg rb) n = v) :
    Completes (shiftWord f rb n s) (WordPut rb v s) := by
  rw [shiftWord, hv, csSign_eq]
  exact ⟨_, rfl, wordResult_of_write s rb v _ (c := false) (by simp)⟩

theorem shiftPair_completes {f : DWord → Nat → DWord} {rb : Reg} {n : Nat} {s : State} {v : DWord}
    (hv : f (s.pair rb) n = v) : Completes (shiftPair f rb n s) (PairPut rb v s) := by
  rw [shiftPair, hv, csSign_eq]
  exact ⟨_, rfl, pairResult_of_write s rb v _ (c := false) (by simp)⟩

/-- Settles O31: each form is `shiftWord` or `shiftPair` of an operation that is its exact number. -/
theorem immediateShiftsPutShiftedValue : Obligations.ImmediateShiftsPutShiftedValue := by
  unfold Obligations.ImmediateShiftsPutShiftedValue
  intro s rb n _ hn
  refine ⟨?sll, ?srl, ?sra, ?slc, ?dsll, ?dsrl, ?dsra, ?dslc⟩
  case sll => exact shiftWord_completes (shiftLeft_eq_shiftedLeft _ n)
  case srl => exact shiftWord_completes (ushiftRight_eq_shiftedRight _ n)
  case sra => exact shiftWord_completes (sshiftRight_eq_shiftedArithmetic _ n)
  case slc => exact shiftWord_completes (rotateLeft_eq_rotatedLeft _ hn)
  case dsll => exact shiftPair_completes (shiftLeft_eq_shiftedLeft _ n)
  case dsrl => exact shiftPair_completes (ushiftRight_eq_shiftedRight _ n)
  case dsra => exact shiftPair_completes (sshiftRight_eq_shiftedArithmetic _ n)
  case dslc => exact shiftPair_completes (rotateLeft_eq_rotatedLeft _ (by omega))

/-! ## The shifts by a count in a register (42_shift R429 to R436) -/

section
variable {ra rb : Reg} {s : State}

theorem shiftWordBy_completes {left right : Word → Nat → Word} {ovf : Word → Int → Bool} {v : Word} {p : Prop}
    (hn : -16 ≤ (s.reg rb).toInt ∧ (s.reg rb).toInt ≤ 16) (hv : signedShift left right (s.reg ra) (s.reg rb).toInt = v)
    (hp : ovf (s.reg ra) (s.reg rb).toInt = true ↔ p) :
    Completes (shiftWordBy left right ovf ra rb s) (WordResult ra v (signCS v.toInt) p s) := by
  have hcount : ¬16 < (s.reg rb).toInt.natAbs := by omega
  simp only [shiftWordBy, if_neg hcount, hv, csSign_eq]
  exact ⟨_, rfl, wordResult_of_write s ra v _ hp⟩

theorem shiftPairBy_completes {left right : DWord → Nat → DWord} {ovf : DWord → Int → Bool} {v : DWord} {p : Prop}
    (hn : -32 ≤ (s.reg rb).toInt ∧ (s.reg rb).toInt ≤ 32) (hv : signedShift left right (s.pair ra) (s.reg rb).toInt = v)
    (hp : ovf (s.pair ra) (s.reg rb).toInt = true ↔ p) :
    Completes (shiftPairBy left right ovf ra rb s) (PairResult ra v (signCS v.toInt) p s) := by
  have hcount : ¬32 < (s.reg rb).toInt.natAbs := by omega
  simp only [shiftPairBy, if_neg hcount, hv, csSign_eq]
  exact ⟨_, rfl, pairResult_of_write s ra v _ hp⟩

theorem shiftWordBy_of_count_beyond (left right : Word → Nat → Word) (ovf : Word → Int → Bool)
    (hn : (s.reg rb).toInt < -16 ∨ 16 < (s.reg rb).toInt) :
    shiftWordBy left right ovf ra rb s = .next (raiseInterrupt fixedOverflow s) :=
  if_pos (by omega)

theorem shiftPairBy_of_count_beyond (left right : DWord → Nat → DWord) (ovf : DWord → Int → Bool)
    (hn : (s.reg rb).toInt < -32 ∨ 32 < (s.reg rb).toInt) :
    shiftPairBy left right ovf ra rb s = .next (raiseInterrupt fixedOverflow s) :=
  if_pos (by omega)

end

section
variable {w : Nat} (x : BitVec w) {n : Int} (hn : -(w : Int) ≤ n ∧ n ≤ w)
include hn

theorem signedShift_logical :
    signedShift (fun x k => x <<< k) (fun x k => x >>> k) x n = shiftedBy (shiftedLeft w) (shiftedRight w) x n :=
  signedShift_eq_shiftedBy x hn (fun k _ => shiftLeft_eq_shiftedLeft x k) (fun k _ => ushiftRight_eq_shiftedRight x k)
    (shiftedLeft_zero x)

theorem signedShift_arithmetic :
    signedShift (fun x k => x <<< k) BitVec.sshiftRight x n = shiftedBy (shiftedLeft w) (shiftedArithmetic w) x n :=
  signedShift_eq_shiftedBy x hn (fun k _ => shiftLeft_eq_shiftedLeft x k)
    (fun k _ => sshiftRight_eq_shiftedArithmetic x k) (shiftedLeft_zero x)

theorem signedShift_cyclic :
    signedShift rotateLeft rotateRight x n = shiftedBy (rotatedLeft w) (rotatedRight w) x n :=
  signedShift_eq_shiftedBy x hn (fun _ => rotateLeft_eq_rotatedLeft x) (fun _ => rotateRight_eq_rotatedRight x)
    (rotatedLeft_zero x)

end

/-- Settles O32: within the width each form is its exact shift by the signed count, beyond it the request alone. -/
theorem registerCountShiftsPutShiftedValue : Obligations.RegisterCountShiftsPutShiftedValue := by
  unfold Obligations.RegisterCountShiftsPutShiftedValue
  refine ⟨fun s ra rb hlo hhi => ?word, fun s ra rb hlo hhi => ?pair,
    fun s ra rb => ⟨fun hn => ?wordBeyond, fun hn => ?pairBeyond⟩⟩
  case word =>
    have hn := And.intro hlo hhi
    exact ⟨shiftWordBy_completes hn (signedShift_logical _ hn) (noOverflow_iff _ _),
      shiftWordBy_completes hn (signedShift_cyclic _ hn) (noOverflow_iff _ _),
      shiftWordBy_completes hn (signedShift_arithmetic _ hn) (leftOverflow_iff _ _)⟩
  case pair =>
    have hn := And.intro hlo hhi
    exact ⟨shiftPairBy_completes hn (signedShift_logical _ hn) (noOverflow_iff _ _),
      shiftPairBy_completes hn (signedShift_cyclic _ hn) (noOverflow_iff _ _),
      shiftPairBy_completes hn (signedShift_arithmetic _ hn) (leftOverflow_iff _ _)⟩
  case wordBeyond =>
    exact ⟨shiftWordBy_of_count_beyond _ _ _ hn, shiftWordBy_of_count_beyond _ _ _ hn, shiftWordBy_of_count_beyond _ _ _ hn⟩
  case pairBeyond =>
    exact ⟨shiftPairBy_of_count_beyond _ _ _ hn, shiftPairBy_of_count_beyond _ _ _ hn, shiftPairBy_of_count_beyond _ _ _ hn⟩

end Sys2Proof.Machine

/-! # Jumps, branches and the status loads (43_jump_branch)

The jump condition, the branches, the calls, the executive call as the shared sequence of a vector, and the load of a new
state from memory. -/

namespace Sys2Proof.Machine

/-! ## The jumps on a mask (43_jump_branch R450 to R452) -/

/-- The jump condition as R450 says it: a bit of the mask meets a bit of CS, or the mask is 7 or F. -/
theorem jumpCondition_iff (c cs : BitVec 4) :
    jumpCondition c cs = true ↔ c = 0x7#4 ∨ c = 0xF#4 ∨ ∃ k, c.getLsbD k = true ∧ cs.getLsbD k = true := by
  have hand : c &&& cs ≠ 0x0#4 ↔ ∃ k, c.getLsbD k = true ∧ cs.getLsbD k = true := by
    constructor
    · intro hne
      by_contra hno
      refine hne (BitVec.eq_of_getLsbD_eq fun k _ => ?_)
      rw [BitVec.getLsbD_and, BitVec.getLsbD_zero]
      exact Bool.eq_false_iff.2 fun h => hno ⟨k, Bool.and_eq_true_iff.1 h⟩
    · rintro ⟨k, hc, hcs⟩ hzero
      have hk : (c &&& cs).getLsbD k = false := by rw [hzero, BitVec.getLsbD_zero]
      simp [hc, hcs] at hk
  simp only [jumpCondition, Bool.or_eq_true, decide_eq_true_iff, hand, or_assoc]

theorem exec_jci_of_pointer {s u : State} {rx : Reg} {addr a : Word} (c : BitVec 4) (h : daIndirect rx addr s = .ok (a, u)) :
    exec (.jci c rx addr) s = .next (if jumpCondition c (csOf s.sw) then jumpTo a u else u) := by
  have hsw : u.sw = s.sw := by rw [takeTurn_keeps (load_ok h).1]
  rw [← hsw]
  exact withPointer_of_load (fun a t => .next (if jumpCondition c (csOf t.sw) then jumpTo a t else t)) h

/-- Settles O33: both jumps test the same condition; JCI has read its pointer word before. -/
theorem conditionalJumpsFollowMask : Obligations.ConditionalJumpsFollowMask := by
  unfold Obligations.ConditionalJumpsFollowMask
  intro s c rx addr taken
  have hcond : jumpCondition c (csOf s.sw) = true ↔ taken := jumpCondition_iff c (csOf s.sw)
  refine ⟨fun h => ?_, fun h => ?_, fun a u hp => ⟨fun h => ?_, fun h => ?_⟩⟩
  · exact congrArg Host.Outcome.next (if_pos (hcond.2 h))
  · exact congrArg Host.Outcome.next (if_neg (mt hcond.1 h))
  · rw [exec_jci_of_pointer c hp, if_pos (hcond.2 h)]
    rfl
  · rw [exec_jci_of_pointer c hp, if_neg (mt hcond.1 h)]
    have hturn := (load_ok hp).1
    have hu := takeTurn_keeps hturn
    refine ⟨u, rfl, by rw [hu], by rw [hu], by rw [hu], fun hq => ?_⟩
    rw [takeTurn_of_quiet hq] at hturn
    cases hturn
    rfl

/-! ## The branches (43_jump_branch R455 to R462) -/

theorem pzn_toNat (s : State) : (pzn s).toNat = (csOf s.sw).toNat % 8 := by
  rw [pzn, BitVec.extractLsb'_toNat, Nat.shiftRight_zero]

/-- A branch goes to IC0 + D and changes nothing but IC. -/
theorem branch_completes (d : Byte) (s : State) : Completes (.next (jumpTo (daIcRelative d s) s)) fun t =>
    t = { s with ic := t.ic } ∧ (t.ic.toNat : Int) = ((s.ic.toNat : Int) - 1 + d.toInt) % 65536 :=
  ⟨_, rfl, rfl, daIcRelative_toNat d s⟩

/-- A branch whose patterns are met by the condition `c`. -/
theorem branchIf_outcomes {ps : List (BitVec 3)} {c : Prop} {s : State} (d : Byte) (hc : pzn s ∈ ps ↔ c) :
    (c → Completes (branchIf ps d s) fun t =>
      t = { s with ic := t.ic } ∧ (t.ic.toNat : Int) = ((s.ic.toNat : Int) - 1 + d.toInt) % 65536) ∧
      (¬c → branchIf ps d s = .next s) := by
  refine ⟨fun h => ?_, fun h => ?_⟩
  · rw [branchIf, if_pos (List.contains_iff_mem.2 (hc.2 h))]
    exact branch_completes d s
  · rw [branchIf, if_neg fun hm => h (hc.1 (List.contains_iff_mem.1 hm))]

/-! ## The counted jump and the calls (43_jump_branch R453, R454, R466, R467) -/

theorem exec_js_completes (s : State) (ra rx : Reg) (addr : Word) : Completes (exec (.js ra rx addr) s) fun t =>
    t = { s with regs := t.regs, ic := daLong rx addr s } ∧ KeepsRegs [ra] s t ∧ t.reg ra = s.ic :=
  ⟨_, rfl, rfl, keepsRegs_setReg s ra s.ic, State.reg_setReg_same s ra s.ic⟩

/-- Subtracting one from a word, over the integers. -/
theorem sub_one_eq_ofInt (x : Word) : x - 1 = BitVec.ofInt 16 (x.toInt - 1) := by
  rw [← BitVec.toInt_inj, BitVec.toInt_sub, BitVec.toInt_ofInt]
  rfl

/-- SOJ ends with IC at the jump address unless the counter has reached zero. -/
theorem exec_soj (s : State) (ra rx : Reg) (addr : Word) : exec (.soj ra rx addr) s =
    .next (jumpTo (if s.reg ra - 1 = 0x0000#16 then s.ic else daLong rx addr s)
      (setCS (csSign (s.reg ra - 1)) (s.setReg ra (s.reg ra - 1)))) := by
  change execSoj ra rx addr s = _
  unfold execSoj
  dsimp only
  split <;> rfl

theorem exec_soj_completes (s : State) (ra rx : Reg) (addr : Word) : Completes (exec (.soj ra rx addr) s) fun t =>
    t = { s with regs := t.regs, sw := t.sw, ic := t.ic } ∧ KeepsRegs [ra] s t ∧ KeepsStatus s t ∧
      t.reg ra = BitVec.ofInt 16 ((s.reg ra).toInt - 1) ∧ csOf t.sw = signCS (t.reg ra).toInt ∧
      t.ic = if t.reg ra = 0x0000#16 then s.ic else daLong rx addr s := by
  refine ⟨_, exec_soj s ra rx addr, rfl, keepsRegs_setReg s ra _, statusRest_withCS s.sw _, ?_, ?_, ?_⟩
  · rw [jumpTo_reg, setCS_reg, State.reg_setReg_same, sub_one_eq_ofInt]
  · rw [jumpTo_reg, setCS_reg, State.reg_setReg_same, ← csSign_eq]
    exact csOf_withCS s.sw _
  · rw [jumpTo_reg, setCS_reg, State.reg_setReg_same, jumpTo_ic]

/-- A store after a write of a register: a reference does not depend on the registers. -/
theorem storeNow_setReg {s : State} {a : Word} (ra : Reg) (x v : Word) (h : Writable s a) :
    storeNow a v (s.setReg ra x) = .ok { s.setReg ra x with mem := Memory.writeWord s.mem (physOf s a) v } := by
  have ha : Writable (s.setReg ra x) a := (refFault_congr (s := s) rfl rfl rfl rfl rfl _ _ _ _).trans h
  have hp : physOf (s.setReg ra x) a = physOf s a := translate_congr rfl rfl _ _
  rw [storeNow_of_writable v ha, hp]
  rfl

theorem exec_sjs_completes {s u : State} {ra : Reg} (rx : Reg) (addr : Word) (hw : Memory.wf s.mem = true)
    (ht : takeTurn s = .ok u) (ha : Writable u (s.reg ra - 1)) : Completes (exec (.sjs ra rx addr) s) fun t =>
      StoreRegsResult [ra] (s.reg ra - 1) [s.ic] u t ∧ t.reg ra = s.reg ra - 1 ∧ t.ic = daLong rx addr s := by
  have hu := takeTurn_keeps ht
  have hregs : u.regs = s.regs := by rw [hu]
  have hic : u.ic = s.ic := by rw [hu]
  have hra : u.reg ra = s.reg ra := congrArg (fun rs => rs.get ra) hregs
  change Completes (execSjs ra rx addr s) _
  simp only [execSjs, ht, andThen_ok, hra, hic, daLong_congr hregs, storeNow_setReg ra _ _ ha]
  exact ⟨_, rfl, ⟨rfl, keepsRegs_setReg u ra _, storesAt_writeWord (takeTurn_wf ht hw) rfl⟩,
    State.reg_setReg_same u ra _, rfl⟩

theorem exec_urs_completes {s u : State} {ra : Reg} {a : Word} (hl : load (s.reg ra) s = .ok (a, u)) :
    Completes (exec (.urs ra) s) fun t =>
      t = { u with regs := t.regs, ic := a } ∧ KeepsRegs [ra] s t ∧ t.reg ra = s.reg ra + 1 := by
  have hra : ∀ r, u.reg r = s.reg r := fun r => congrArg (fun rs => rs.get r) (load_keeps hl).1
  change Completes (execUrs ra s) _
  rw [execUrs, withWord_of_load _ hl, hra]
  exact ⟨_, rfl, rfl, fun r hr => (keepsRegs_setReg (jumpTo a u) ra _ r hr).trans (hra r), State.reg_setReg_same _ ra _⟩

/-- Settles O34: each branch is `branchIf` of the patterns of its condition, BR the one that is always taken. -/
theorem branchesAndCallsSetCounter : Obligations.BranchesAndCallsSetCounter := by
  unfold Obligations.BranchesAndCallsSetCounter
  refine ⟨fun s d => ?_, fun s ra rx addr => ⟨?_, ?_, ?_, ?_⟩⟩
  · intro n branch
    have hn : ∀ v : BitVec 3, pzn s = v ↔ n = v.toNat := fun v => by rw [← BitVec.toNat_inj, pzn_toNat]
    refine ⟨⟨fun _ => branch_completes d s, fun h => (h trivial).elim⟩, branchIf_outcomes d ?_, branchIf_outcomes d ?_,
      branchIf_outcomes d ?_, branchIf_outcomes d ?_, branchIf_outcomes d ?_, branchIf_outcomes d ?_⟩
    all_goals simp [hn]
  · exact exec_js_completes s ra rx addr
  · exact exec_soj_completes s ra rx addr
  · exact fun u hw ht ha => exec_sjs_completes rx addr hw ht ha
  · exact fun a u hl => exec_urs_completes hl

/-! ## Taking an interrupt with every reference good (60_exceptions R772, 43_jump_branch R463) -/

/-- A quiet schedule is quiet at each of its turns. -/
theorem QuietFor.nth {n k : Nat} {s : State} (h : QuietFor n s) (hk : k < n) : QuietFor 1 (afterTurns k s) := by
  intro j hj
  obtain rfl : j = 0 := by omega
  simpa [afterTurns] using h k hk

/-- A read of the sequence that passes, in the k-th quiet turn. -/
theorem withVector_afterTurns {n k : Nat} {a v : Word} {s : State} (f : Word → State → Out) (hq : QuietFor n s) (hk : k < n)
    (h : readNow vectorAccess a s = .ok v) : withVector a (afterTurns k s) f = f v (afterTurns (k + 1) s) := by
  rw [withVector_of_read f (hq.nth hk) (readNow_afterTurns h), afterTurns_afterTurns]

/-- A store of the sequence that passes, in the k-th quiet turn. -/
theorem linkageWrite_afterTurns {n k : Nat} {w a : Word} {s : State} (v : Word) (hq : QuietFor n s) (hk : k < n)
    (h : refFault s .cpu (linkageAccess w) true a = none) :
    linkageWrite w a v (afterTurns k s) =
      .ok (afterTurns (k + 1) (physWrite s (translate s (linkageAccess w) a) v)) := by
  have hf : refFault (afterTurns k s) .cpu (linkageAccess w) true a = none :=
    (refFault_congr (s := s) rfl rfl rfl rfl rfl _ _ _ _).trans h
  have ht : translate (afterTurns k s) (linkageAccess w) a = translate s (linkageAccess w) a := translate_congr rfl rfl _ _
  rw [linkageWrite_of_none (hq.nth hk) hf, ht, afterTurns_afterTurns]
  rfl

/-- A store changes nothing that the stores after it depend on. -/
theorem LinkageWritable.after_physWrite {w lp : Word} {s : State} (h : LinkageWritable w lp s) (p : PAddr) (v : Word) :
    LinkageWritable w lp (physWrite s p v) := fun k hk =>
  (refFault_congr (s := s) rfl rfl rfl rfl rfl _ _ _ _).trans (h k hk)

/-- What was given is gone on with. -/
theorem andThen_of_ok {α : Type} {r : Except Out α} {v : α} (k : α → Out) (h : r = .ok v) : andThen r k = k v := by
  rw [h, andThen_ok]

/-- The old MK, SW and IC put into the linkage area. -/
def saveLinkage (w lp : Word) (s : State) : State :=
  physWrite (physWrite (physWrite s (linkageWord w lp s 0) s.mask) (linkageWord w lp s 1) s.sw) (linkageWord w lp s 2) s.ic

/-- With every reference good the shared sequence saves the old MK, SW and IC and loads the new ones. -/
theorem takeVector_of_reads {n : BitNo} {off svp m w i lp : Word} {s : State} (request : State → State) (hq : QuietFor 8 s)
    (hr : VectorReads n off svp m w i lp s) (hl : LinkageWritable w lp s) :
    takeVector n off request s = .next (disableInterrupts (loadStatus m w i
      (request (afterTurns 8 (saveLinkage w lp s))))) := by
  obtain ⟨hsvp, hm, hw, hi, hlp⟩ := hr
  have hl1 := hl.after_physWrite (linkageWord w lp s 0) s.mask
  have hl2 := hl1.after_physWrite (linkageWord w lp s 1) s.sw
  have store0 := linkageWrite_afterTurns (s := s) (k := 5) s.mask hq (by decide) (hl 0 (by decide))
  have store1 := linkageWrite_afterTurns (s := physWrite s _ _) (k := 6) s.sw hq (by decide) (hl1 1 (by decide))
  have store2 :=
    linkageWrite_afterTurns (s := physWrite (physWrite s _ _) _ _) (k := 7) s.ic hq (by decide) (hl2 2 (by decide))
  have hlp0 : linkageWrite w (lp + BitVec.ofNat 16 0) = linkageWrite w lp := congrArg _ (BitVec.add_zero lp)
  rw [hlp0] at store0
  rw [takeVector, servicePointer, linkagePointer, withVector_of_read _ hq hsvp, withVector_afterTurns _ hq (by decide) hm,
    withVector_afterTurns _ hq (by decide) hw, withVector_afterTurns _ hq (by decide) hi,
    withVector_afterTurns _ hq (by decide) hlp]
  exact (andThen_of_ok _ store0).trans ((andThen_of_ok _ store1).trans (andThen_of_ok _ store2))

/-- Translation keeps the word within its page. -/
theorem translate_offset (s : State) (a : Access) (l : Word) : (translate s a l).toNat % 4096 = l.toNat % 4096 := by
  unfold translate
  split
  · rw [BitVec.toNat_setWidth_of_le (by decide)]
  · rw [toNat_append_eq, BitVec.extractLsb'_toNat (x := l), Nat.shiftRight_zero]
    omega

/-- The linkage words differ, whatever the mapping of their pages: their addresses differ within the page. -/
theorem linkageWord_ne (w lp : Word) (s : State) {j k : Nat} (hj : j < 3) (hk : k < 3) (h : j ≠ k) :
    linkageWord w lp s j ≠ linkageWord w lp s k := by
  intro he
  have hoffset : (lp + BitVec.ofNat 16 j).toNat % 4096 = (lp + BitVec.ofNat 16 k).toNat % 4096 := by
    rw [← translate_offset s (linkageAccess w), ← translate_offset s (linkageAccess w)]
    exact congrArg (fun p : PAddr => p.toNat % 4096) he
  rw [BitVec.toNat_add, BitVec.toNat_add, BitVec.toNat_ofNat, BitVec.toNat_ofNat] at hoffset
  omega

/-- The three stores do not overlap, so each word stands where it was put. -/
theorem linkageSaved_of_mem {w lp : Word} {s t : State} (hwf : Memory.wf s.mem = true)
    (ht : t.mem = (saveLinkage w lp s).mem) : LinkageSaved w lp s t := by
  have hwf0 := Memory.wf_writeWord (linkageWord w lp s 0) s.mask hwf
  have hwf1 := Memory.wf_writeWord (linkageWord w lp s 1) s.sw hwf0
  have h01 := linkageWord_ne w lp s (j := 0) (k := 1) (by decide) (by decide) (by decide)
  have h02 := linkageWord_ne w lp s (j := 0) (k := 2) (by decide) (by decide) (by decide)
  have h12 := linkageWord_ne w lp s (j := 1) (k := 2) (by decide) (by decide) (by decide)
  simp only [LinkageSaved, ht, saveLinkage, physWrite_mem]
  refine ⟨?_, ?_, Memory.readWord_writeWord_same hwf1 _ _, fun b hb => ?_⟩
  · rw [Memory.readWord_writeWord_other hwf1 _ h02, Memory.readWord_writeWord_other hwf0 _ h01,
      Memory.readWord_writeWord_same hwf]
  · rw [Memory.readWord_writeWord_other hwf1 _ h12, Memory.readWord_writeWord_same hwf0]
  · obtain ⟨hb0, hb0'⟩ := hb 0 (by decide)
    obtain ⟨hb1, hb1'⟩ := hb 1 (by decide)
    obtain ⟨hb2, hb2'⟩ := hb 2 (by decide)
    rw [Memory.readByte_writeWord hwf1, if_neg hb2', if_neg hb2, Memory.readByte_writeWord hwf0, if_neg hb1', if_neg hb1,
      Memory.readByte_writeWord hwf, if_neg hb0', if_neg hb0]

/-- A fault touches neither the interrupt enable nor its delay. -/
theorem disableInterrupts_raiseFault (k : BitNo) (s : State) :
    disableInterrupts (raiseFault k s) = raiseFault k (disableInterrupts s) :=
  apply_ite disableInterrupts _ _ _

/-- Interrupts may as well be disabled before the new state is loaded. -/
theorem disableInterrupts_loadStatus (m w i : Word) (s : State) :
    disableInterrupts (loadStatus m w i s) = loadStatus m w i (disableInterrupts s) := by
  rw [loadStatus, loadSW_eq, apply_ite disableInterrupts, disableInterrupts_raiseFault]
  rfl

theorem loadStatus_mem (m w i : Word) (s : State) : (loadStatus m w i s).mem = s.mem := by
  rw [loadStatus, loadSW_eq]
  split
  · rfl
  · rw [raiseFault_mem]

/-- Where the linkage area is does not depend on the schedule. -/
theorem linkageWord_afterTurns (w lp : Word) (n : Nat) (s : State) : linkageWord w lp (afterTurns n s) = linkageWord w lp s :=
  funext fun _ => translate_congr (s := s) (t := afterTurns n s) rfl rfl _ _

theorem saveLinkage_afterTurns (w lp : Word) (n : Nat) (s : State) :
    saveLinkage w lp (afterTurns n s) = afterTurns n (saveLinkage w lp s) := by
  simp only [saveLinkage, linkageWord_afterTurns]
  rfl

/-- The linkage stores change memory alone. -/
theorem saveLinkage_frame (w lp : Word) (s : State) : saveLinkage w lp s = { s with mem := (saveLinkage w lp s).mem } := rfl

/-- The new state over the saved old one is what the statements call a vector taken. -/
theorem vectorTaken_of_saveLinkage {w lp : Word} {s : State} (m i : Word) (hwf : Memory.wf s.mem = true) :
    VectorTaken m w i lp s (disableInterrupts (loadStatus m w i (saveLinkage w lp s))) := by
  have hmem := loadStatus_mem m w i (disableInterrupts (saveLinkage w lp s))
  rw [disableInterrupts_loadStatus]
  refine ⟨linkageSaved_of_mem hwf hmem, ?_⟩
  rw [hmem, saveLinkage_frame]
  generalize (saveLinkage w lp s).mem = saved
  rfl

/-- Settles O17: BEX is the shared sequence of vector 5 at the entry N, which leaves the request as it is. -/
theorem bexEntersExecutive : Obligations.BexEntersExecutive := by
  unfold Obligations.BexEntersExecutive
  intro n s svp m w i lp hwf hq hr hl
  change Completes (takeVector 5 (smallConstant n) (fun t => t) s) _
  refine ⟨_, takeVector_of_reads (fun t => t) hq hr hl, ?_⟩
  rw [← saveLinkage_afterTurns]
  exact vectorTaken_of_saveLinkage m i hwf

/-! ## The load of a new state (43_jump_branch R464, R465) -/

/-- All that loading a new state can do: the new MK, SW and IC, and Fault 11 for an address state not implemented. -/
theorem loadStatus_eq (m w i : Word) (s : State) :
    loadStatus m w i s = if groupImplemented s.cfg (asOf w) = true then { s with mask := m, sw := w, ic := i }
      else raiseFault 11 { s with mask := m, sw := w, ic := i } := rfl

/-- With its three words readable the return ends in the new state. -/
theorem returnFrom_of_loads {s s1 s2 s3 : State} {a m w i : Word} (hm : load a s = .ok (m, s1))
    (hw : load (a + 1) s1 = .ok (w, s2)) (hi : load (a + 2) s2 = .ok (i, s3)) :
    returnFrom a s = .next (loadStatus m w i s3) := by
  rw [returnFrom, withWord_of_load _ hm, withWord_of_load _ hw, withWord_of_load _ hi]

theorem exec_lst {s : State} (rx : Reg) (addr : Word) (hps : psOf s.sw = 0x0#4) :
    exec (.lst rx addr) s = returnFrom (daLong rx addr s) s :=
  privileged_of_zero (returnFrom (daLong rx addr s) s) hps

theorem exec_lsti_of_pointer {s u : State} {rx : Reg} {addr a : Word} (hps : psOf s.sw = 0x0#4)
    (h : daIndirect rx addr s = .ok (a, u)) : exec (.lsti rx addr) s = returnFrom a u :=
  (privileged_of_zero (withPointer rx addr s returnFrom) hps).trans (withPointer_of_load returnFrom h)

/-- Settles O18: both forms are the same return, LSTI from the address in its pointer word. -/
theorem loadStatusLoadsThreeWords : Obligations.LoadStatusLoadsThreeWords := by
  unfold Obligations.LoadStatusLoadsThreeWords
  intro s s0 s1 s2 s3 rx addr a m w i hps hm hw hi loaded
  have hcfg : s3.cfg = s0.cfg := (load_keeps hi).2.trans ((load_keeps hw).2.trans (load_keeps hm).2)
  have completes : s0.cfg = s.cfg → Completes (returnFrom a s0) loaded := fun h0 => by
    refine ⟨_, returnFrom_of_loads hm hw hi, ?_⟩
    unfold loaded
    rw [← h0, ← hcfg, loadStatus_eq]
    split <;> rfl
  refine ⟨fun hs ha => ?_, fun hp => ?_⟩
  · subst hs ha
    rw [exec_lst rx addr hps]
    exact completes rfl
  · rw [exec_lsti_of_pointer hps hp]
    exact completes (load_keeps hp).2

end Sys2Proof.Machine

/-! # The loads (44_load)

What a load leaves in one, two and three registers, the two bytes of a word, the loads of several registers as one filling
of a range of registers, and the two statements about the family. -/

namespace Sys2Proof.Machine

/-! ## A loaded value with its CS (44_load R480) -/

theorem putWord_wordPut (ra : Reg) (v : Word) (s : State) : WordPut ra v s (putWord ra v s) := by
  rw [putWord, csSign_eq]
  exact wordResult_of_write s ra v _ (c := false) (by simp)

theorem putPair_pairPut (ra : Reg) (v : DWord) (s : State) : PairPut ra v s (putPair ra v s) := by
  rw [putPair, csSign_eq]
  exact pairResult_of_write s ra v _ (c := false) (by simp)

theorem keepsRegs_setTriple (s : State) (ra : Reg) (v : TWord) : KeepsRegs [ra, ra + 1, ra + 2] s (s.setTriple ra v) := by
  intro r hr
  obtain ⟨h0, h1, h2⟩ : r ≠ ra ∧ r ≠ ra + 1 ∧ r ≠ ra + 2 := by simpa using hr
  rw [State.reg_setTriple, if_neg h2, if_neg h1, if_neg h0]

theorem putTriple_triplePut (ra : Reg) (v : TWord) (s : State) : TriplePut ra v s (putTriple ra v s) := by
  rw [putTriple, csSign_eq]
  exact ⟨frame_raiseIf_setCS rfl (keepsRegs_setTriple s ra v) false fixedOverflow _, State.triple_setTriple s ra v,
    csOf_withCS s.sw _, rfl⟩

/-! ## The bytes of a word (20_memory R201) -/

theorem upperByte_toNat (x : Word) : (upperByte x).toNat = x.toNat / 256 := by
  have hx := x.isLt
  rw [upperByte, BitVec.extractLsb'_toNat, Nat.shiftRight_eq_div_pow]
  omega

theorem lowerByte_toNat (x : Word) : (lowerByte x).toNat = x.toNat % 256 := by
  rw [lowerByte, BitVec.extractLsb'_toNat, Nat.shiftRight_zero]

/-- A word with another lower byte, as an exact number. -/
theorem upperByte_append (x : Word) (b : Byte) : upperByte x ++ b = BitVec.ofNat 16 (x.toNat / 256 * 256 + b.toNat) := by
  have happ : (upperByte x ++ b).toNat = x.toNat / 256 * 256 + b.toNat := by
    rw [toNat_append_eq, upperByte_toNat, show 2 ^ 8 = 256 from rfl]
  exact BitVec.eq_of_toNat_eq (by rw [BitVec.toNat_ofNat, Nat.mod_eq_of_lt (happ ▸ (upperByte x ++ b).isLt), happ])

theorem putLowerByte_wordPut (ra : Reg) (b : Byte) (s : State) :
    WordPut ra (BitVec.ofNat 16 ((s.reg ra).toNat / 256 * 256 + b.toNat)) s (putLowerByte ra b s) := by
  rw [putLowerByte, upperByte_append]
  exact putWord_wordPut ra _ s

/-! ## The loads of one, two and three words and of a byte (44_load R481 to R493, R495 to R499) -/

theorem loadWordTo_wordPut (ra : Reg) (a : Word) (s : State) : WithWordAt a s (loadWordTo ra a s) (WordPut ra) := by
  intro d u hl
  rw [loadWordTo, withWord_of_load _ hl]
  exact ⟨_, rfl, putWord_wordPut ra d u⟩

theorem loadPairTo_pairPut (ra : Reg) (a : Word) (s : State) : WithDoubleAt a s (loadPairTo ra a s) (PairPut ra) := by
  intro d u hl
  rw [loadPairTo, withDouble_of_load2 _ hl]
  exact ⟨_, rfl, putPair_pairPut ra d u⟩

theorem exec_efl_triplePut : MemForm3 .efl fun ra d => TriplePut ra d := by
  intro s ra rx addr d u hl
  change Completes (withTriple (daLong rx addr s) s fun d s => .next (putTriple ra d s)) _
  rw [withTriple_of_load3 _ hl]
  exact ⟨_, rfl, putTriple_triplePut ra d u⟩

theorem loadUpperTo_wordPut (ra : Reg) (a : Word) (s : State) : WithWordAt a s (loadUpperTo ra a s) fun d u =>
    WordPut ra (BitVec.ofNat 16 ((u.reg ra).toNat / 256 * 256 + d.toNat / 256)) u := by
  intro d u hl
  rw [loadUpperTo, withWord_of_load _ hl]
  have hput := putLowerByte_wordPut ra (upperByte d) u
  rw [upperByte_toNat] at hput
  exact ⟨_, rfl, hput⟩

theorem loadLowerTo_wordPut (ra : Reg) (a : Word) (s : State) : WithWordAt a s (loadLowerTo ra a s) fun d u =>
    WordPut ra (BitVec.ofNat 16 ((u.reg ra).toNat / 256 * 256 + d.toNat % 256)) u := by
  intro d u hl
  rw [loadLowerTo, withWord_of_load _ hl]
  have hput := putLowerByte_wordPut ra (lowerByte d) u
  rw [lowerByte_toNat] at hput
  exact ⟨_, rfl, hput⟩

/-- An instruction that goes on from its pointer word with `k` has the indirect form of what `k` does at every address. -/
theorem indirectForm_of_pointer {m : Reg → Reg → Word → Instr} {k : Reg → Word → State → Out}
    {P : Reg → Word → State → State → Prop}
    (hexec : ∀ s ra rx addr, exec (m ra rx addr) s = withPointer rx addr s (k ra))
    (hk : ∀ ra a u, WithWordAt a u (k ra a u) (P ra)) : IndirectForm m P := by
  intro s ra rx addr a u hp
  rw [hexec, withPointer_of_load _ hp]
  exact hk ra a u

/-- The same for a double word. -/
theorem indirectForm2_of_pointer {m : Reg → Reg → Word → Instr} {k : Reg → Word → State → Out}
    {P : Reg → DWord → State → State → Prop}
    (hexec : ∀ s ra rx addr, exec (m ra rx addr) s = withPointer rx addr s (k ra))
    (hk : ∀ ra a u, WithDoubleAt a u (k ra a u) (P ra)) : IndirectForm2 m P := by
  intro s ra rx addr a u hp
  rw [hexec, withPointer_of_load _ hp]
  exact hk ra a u

theorem shortPositive_eq_ofInt (n : Nat) : shortPositive n = BitVec.ofInt 16 n := (BitVec.ofInt_natCast ..).symm

theorem shortNegative_eq_ofInt (n : Nat) : shortNegative n = BitVec.ofInt 16 (-n) := by
  rw [BitVec.ofInt_neg, BitVec.ofInt_natCast]
  rfl

/-- Settles O35: the forms of one operation differ in where its operand comes from. -/
theorem loadsPutOperandAndStatus : Obligations.LoadsPutOperandAndStatus := by
  unfold Obligations.LoadsPutOperandAndStatus
  refine ⟨⟨?lr, ⟨?lb, ?lbx⟩, ?lisp, ?lisn, ?l, ?li, ?lim⟩, ⟨?dlr, ⟨?dlb, ?dlbx⟩, ?dl, ?dli, exec_efl_triplePut⟩,
    ?lub, ?lubi, ?llb, ?llbi⟩
  case lr => exact fun s ra rb => ⟨_, rfl, putWord_wordPut ra (s.reg rb) s⟩
  case lb => exact fun s br dspl => loadWordTo_wordPut 2 (daBase br dspl s) s
  case lbx => exact fun s br rx => loadWordTo_wordPut 2 (daBaseIndexed br rx s) s
  case lisp => exact fun s ra n => ⟨_, rfl, shortPositive_eq_ofInt n ▸ putWord_wordPut ra (shortPositive n) s⟩
  case lisn => exact fun s ra n => ⟨_, rfl, shortNegative_eq_ofInt n ▸ putWord_wordPut ra (shortNegative n) s⟩
  case l => exact fun s ra rx addr => loadWordTo_wordPut ra (daLong rx addr s) s
  case li => exact indirectForm_of_pointer (fun _ _ _ _ => rfl) loadWordTo_wordPut
  case lim => exact fun s ra rx addr => ⟨_, rfl, putWord_wordPut ra (daLong rx addr s) s⟩
  case dlr => exact fun s ra rb => ⟨_, rfl, putPair_pairPut ra (s.pair rb) s⟩
  case dlb => exact fun s br dspl => loadPairTo_pairPut 0 (daBase br dspl s) s
  case dlbx => exact fun s br rx => loadPairTo_pairPut 0 (daBaseIndexed br rx s) s
  case dl => exact fun s ra rx addr => loadPairTo_pairPut ra (daLong rx addr s) s
  case dli => exact indirectForm2_of_pointer (fun _ _ _ _ => rfl) loadPairTo_pairPut
  case lub => exact fun s ra rx addr => loadUpperTo_wordPut ra (daLong rx addr s) s
  case lubi => exact indirectForm_of_pointer (fun _ _ _ _ => rfl) loadUpperTo_wordPut
  case llb => exact fun s ra rx addr => loadLowerTo_wordPut ra (daLong rx addr s) s
  case llbi => exact indirectForm_of_pointer (fun _ _ _ _ => rfl) loadLowerTo_wordPut

/-! ## A range of registers, modulo 16 (10_state R132) -/

/-- The slot of the first register of a range, seen from the second, is the last of all. -/
theorem slot_of_first (r : Reg) : (r - (r + 1)).val = 15 := by
  revert r
  decide

/-- The slot of a later register is one further from the first register than from the second. -/
theorem slot_of_later {q r : Reg} : q ≠ r → (q - r).val = (q - (r + 1)).val + 1 := by
  revert q r
  decide

theorem slot_address_succ (a : Word) (k : Nat) : a + 1 + BitVec.ofNat 16 k = a + BitVec.ofNat 16 (k + 1) := by
  rw [Nat.add_comm k, BitVec.ofNat_add, BitVec.add_assoc]
  rfl

/-! ## The slots of a range and the registers that receive them (44_load R494, R500) -/

/-- A register of the `k` from `r` on that is not passed over finds its word `v` at its slot above the address `a`. -/
def SlotsRead (skip : Reg → Prop) (v : Reg → Word) (k : Nat) (r : Reg) (a : Word) (s : State) : Prop :=
  ∀ q, ¬skip q → (q - r).val < k → Reads s (a + BitVec.ofNat 16 (q - r).val) (v q)

/-- The `k` registers from `r` on receive their words `v` and the other ones keep theirs, those passed over aside. -/
def SlotsFilled (skip : Reg → Prop) (v : Reg → Word) (k : Nat) (r : Reg) (s t : State) : Prop :=
  ∀ q, ¬skip q → t.reg q = if (q - r).val < k then v q else s.reg q

section
variable {skip : Reg → Prop} {v : Reg → Word} {k : Nat} {r : Reg} {a : Word} {s t u : State}

/-- A read does not depend on general registers or on the schedule. -/
theorem Reads.with_regs_env {w : Word} (h : Reads s a w) (ht : t = { s with regs := t.regs, env := t.env }) : Reads t a w := by
  rw [ht]
  exact readNow_congr (s := s) (t := { s with regs := t.regs, env := t.env }) rfl rfl rfl rfl rfl rfl rfl h

theorem SlotsRead.first (h : SlotsRead skip v (k + 1) r a s) (hr : ¬skip r) : Reads s a (v r) := by
  simpa using h r hr

/-- The slots after the first, in a state that a transfer has reached. -/
theorem SlotsRead.later (h : SlotsRead skip v (k + 1) r a s) (hk : k ≤ 15) (ht : t = { s with regs := t.regs, env := t.env }) :
    SlotsRead skip v k (r + 1) (a + 1) t := by
  intro q hq hslot
  have hne : q ≠ r := by
    rintro rfl
    rw [slot_of_first] at hslot
    omega
  have hlt : (q - r).val < k + 1 := by
    rw [slot_of_later hne]
    omega
  have hread := h q hq hlt
  rw [slot_of_later hne, ← slot_address_succ] at hread
  exact hread.with_regs_env ht

theorem SlotsFilled.none (s : State) : SlotsFilled skip v 0 r s s := fun _ _ => rfl

/-- The first register of a range received its word or is passed over, then the later ones were filled. -/
theorem SlotsFilled.cons (hk : k ≤ 15) (hu : ∀ q, ¬skip q → u.reg q = if q = r then v r else s.reg q)
    (h : SlotsFilled skip v k (r + 1) u t) : SlotsFilled skip v (k + 1) r s t := by
  intro q hq
  rw [h q hq, hu q hq]
  by_cases hqr : q = r
  · subst hqr
    rw [slot_of_first, if_neg (Nat.not_lt.2 hk), if_pos rfl, sub_self]
    exact (if_pos (Nat.succ_pos k)).symm
  · simp [slot_of_later hqr, hqr]

end

/-- A schedule that is quiet for longer is quiet for a shorter time. -/
theorem QuietFor.mono {m n : Nat} {s : State} (h : QuietFor n s) (hmn : m ≤ n) : QuietFor m s :=
  fun k hk => h k (Nat.lt_of_lt_of_le hk hmn)

/-! ## LM (44_load R494) -/

/-- No register is passed over by LM: the address does not come from one. -/
theorem loadRegs_of_slotsRead {v : Reg → Word} : ∀ {k : Nat} {r : Reg} {a : Word} {s : State}, k ≤ 16 → QuietFor k s →
    SlotsRead (fun _ => False) v k r a s → ∃ t, loadRegs k r a s = .ok t ∧
      t = { s with regs := t.regs, env := s.env.drop k } ∧ SlotsFilled (fun _ => False) v k r s t
  | 0, _, _, s, _, _, _ => ⟨s, rfl, rfl, .none s⟩
  | k + 1, r, a, s, hk, hq, hr => by
    have hk' : k ≤ 15 := by omega
    have hload : load a s = .ok (v r, afterTurns 1 s) := load_of_quiet hq (hr.first not_false)
    have hrest : SlotsRead (fun _ => False) v k (r + 1) (a + 1) ((afterTurns 1 s).setReg r (v r)) := hr.later hk' rfl
    obtain ⟨t, hrun, ht, hfill⟩ := loadRegs_of_slotsRead (s := (afterTurns 1 s).setReg r (v r)) (by omega) hq.tail hrest
    refine ⟨t, by rw [loadRegs, hload]; exact hrun, ?_, hfill.cons hk' fun q _ => State.reg_setReg _ r q (v r)⟩
    rw [ht]
    simp [State.setReg, afterTurns]

/-! ## POPM (44_load R500) -/

/-- One slot of POPM: R15 moves on by one, and the register of the slot receives its word unless it is R15. -/
theorem popRegs_first {v : Reg → Word} {k : Nat} {r : Reg} {s : State} (hq : QuietFor (k + 1) s)
    (hr : SlotsRead (· = 15) v (k + 1) r (s.reg 15) s) : ∃ u, popRegs (k + 1) r s = popRegs k (r + 1) u ∧
      u = { s with regs := u.regs, env := u.env } ∧ QuietFor k u ∧ u.reg 15 = s.reg 15 + 1 ∧
      ∀ q, q ≠ 15 → u.reg q = if q = r then v r else s.reg q := by
  by_cases h15 : r = 15
  · refine ⟨s.setReg 15 (s.reg 15 + 1), by rw [popRegs, if_pos h15], rfl, hq.mono (Nat.le_succ k),
      State.reg_setReg_same s 15 _, fun q hne => ?_⟩
    rw [State.reg_setReg_other s _ hne, if_neg (h15 ▸ hne)]
  · have hload : load (s.reg 15) s = .ok (v r, afterTurns 1 s) := load_of_quiet hq (hr.first h15)
    refine ⟨((afterTurns 1 s).setReg r (v r)).setReg 15 (s.reg 15 + 1), ?_, rfl, hq.tail,
      State.reg_setReg_same _ 15 _, fun q hne => ?_⟩
    · simp only [popRegs, if_neg h15, hload]
      rfl
    · rw [State.reg_setReg_other _ _ hne]
      exact State.reg_setReg _ r q (v r)

theorem popRegs_of_slotsRead {v : Reg → Word} : ∀ {k : Nat} {r : Reg} {s : State}, k ≤ 16 → QuietFor k s →
    SlotsRead (· = 15) v k r (s.reg 15) s → ∃ t, popRegs k r s = .ok t ∧
      t = { s with regs := t.regs, env := t.env } ∧ t.reg 15 = s.reg 15 + BitVec.ofNat 16 k ∧
      SlotsFilled (· = 15) v k r s t
  | 0, _, s, _, _, _ => ⟨s, rfl, rfl, (BitVec.add_zero _).symm, .none s⟩
  | k + 1, r, s, hk, hq, hr => by
    have hk' : k ≤ 15 := by omega
    obtain ⟨u, hfirst, hu, hqu, hsp, hregs⟩ := popRegs_first hq hr
    have hrest : SlotsRead (· = 15) v k (r + 1) (u.reg 15) u := hsp ▸ hr.later hk' hu
    obtain ⟨t, hrun, ht, hspt, hfill⟩ := popRegs_of_slotsRead (by omega) hqu hrest
    refine ⟨t, hfirst.trans hrun, ?_, ?_, hfill.cons hk' hregs⟩
    · rw [ht, hu]
    · rw [hspt, hsp, slot_address_succ]

/-- Settles O36: LM and POPM fill a range of registers slot by slot, POPM past the slot of R15. -/
theorem multipleLoadsPutRegisters : Obligations.MultipleLoadsPutRegisters := by
  unfold Obligations.MultipleLoadsPutRegisters
  refine ⟨fun s n rx addr ws hq hr => ?_, fun s ra rb ws hq hr => ?_⟩
  · have hslots : SlotsRead (fun _ => False) (fun q => ws q.val) (n.val + 1) 0 (daLong rx addr s) s := fun q _ hlt => by
      rw [sub_zero] at hlt ⊢
      exact hr q.val (Nat.le_of_lt_succ hlt)
    obtain ⟨t, hrun, ht, hfill⟩ := loadRegs_of_slotsRead (by omega) hq hslots
    refine ⟨t, andThen_of_ok .next hrun, ht, fun r => ?_⟩
    simpa [Nat.lt_succ_iff] using hfill r not_false
  · have hslots : SlotsRead (· = 15) (fun q => ws (q - ra).val) (rangeCount ra rb) ra (s.reg 15) s :=
      fun q hne hlt => hr q hne (Nat.le_of_lt_succ hlt)
    obtain ⟨t, hrun, ht, hsp, hfill⟩ := popRegs_of_slotsRead (rb - ra).isLt hq hslots
    refine ⟨t, andThen_of_ok .next hrun, ht, hsp, fun r hne => ?_⟩
    simpa [rangeCount, Nat.lt_succ_iff] using hfill r hne

end Sys2Proof.Machine

/-! # The stores (45_store)

Words at ascending addresses do not overlap, what a sequence of stores leaves in memory, the words that a store merges, the
pushes of PSHM one below the other, one word of MOV, and the four statements about the family. -/

namespace Sys2Proof.Machine

/-! ## Words at ascending addresses (20_memory R205, R231) -/

section
variable {s t u : State} {a v : Word} {ws : List Word} {n : Nat}

/-- Neighbouring logical words reach different physical words, whatever the mapping of their pages: their addresses differ
within the page. -/
theorem physOf_ne_later (s : State) (a : Word) {k : Nat} (hk : k < 4095) :
    physOf s (a + 1 + BitVec.ofNat 16 k) ≠ physOf s a := by
  intro he
  have hoffset : (a + 1 + BitVec.ofNat 16 k).toNat % 4096 = a.toNat % 4096 := by
    rw [← translate_offset s (operAccess s), ← translate_offset s (operAccess s) a]
    exact congrArg (fun p : PAddr => p.toNat % 4096) he
  rw [slot_address_succ, BitVec.toNat_add, BitVec.toNat_ofNat] at hoffset
  omega

theorem inWords_one_iff {x : Nat} :
    InWords s a 1 x ↔ x = 2 * (physOf s a).toNat ∨ x = 2 * (physOf s a).toNat + 1 := by
  have ha : a + BitVec.ofNat 16 0 = a := BitVec.add_zero a
  constructor
  · rintro ⟨k, hk, hx⟩
    obtain rfl : k = 0 := by omega
    rwa [ha] at hx
  · exact fun hx => ⟨0, Nat.one_pos, by rwa [ha]⟩

theorem inWords_succ_iff {x : Nat} : InWords s a (n + 1) x ↔ InWords s a 1 x ∨ InWords s (a + 1) n x := by
  constructor
  · rintro ⟨k, hk, hx⟩
    cases k with
    | zero => exact .inl ⟨0, Nat.one_pos, hx⟩
    | succ k => exact .inr ⟨k, Nat.lt_of_succ_lt_succ hk, by rwa [slot_address_succ]⟩
  · rintro (⟨k, hk, hx⟩ | ⟨k, hk, hx⟩)
    · exact ⟨k, by omega, hx⟩
    · exact ⟨k + 1, by omega, by rwa [slot_address_succ] at hx⟩

/-- The word at an address has no byte in common with the words after it. -/
theorem inWords_one_disjoint (hn : n ≤ 4095) {x : Nat} (h : InWords s a 1 x) : ¬InWords s (a + 1) n x := by
  rintro ⟨k, hk, hx⟩
  refine physOf_ne_later s a (Nat.lt_of_lt_of_le hk hn) (BitVec.eq_of_toNat_eq ?_)
  have := inWords_one_iff.1 h
  omega

/-- What was stored stays stored when only bytes outside it change. -/
theorem StoresAt.words_of_bytes (h : StoresAt a ws s u)
    (hb : ∀ x, InWords s a ws.length x → Memory.readByte t.mem x = Memory.readByte u.mem x) :
    ∀ k v, ws[k]? = some v → Memory.readWord t.mem (physOf s (a + BitVec.ofNat 16 k)) = v := by
  intro k v hv
  have hk : k < ws.length := (List.getElem?_eq_some_iff.1 hv).1
  rw [Memory.readWord, hb _ ⟨k, hk, .inl rfl⟩, hb _ ⟨k, hk, .inr rfl⟩]
  exact h.1 k v hv

/-- One word and the words after it stand in memory, and nothing else changed: in whatever order they were stored. -/
theorem storesAt_cons_of_parts
    (hv : ∀ k w, [v][k]? = some w → Memory.readWord t.mem (physOf s (a + BitVec.ofNat 16 k)) = w)
    (hws : ∀ k w, ws[k]? = some w → Memory.readWord t.mem (physOf s (a + 1 + BitVec.ofNat 16 k)) = w)
    (hb : ∀ x, ¬InWords s a 1 x → ¬InWords s (a + 1) ws.length x → Memory.readByte t.mem x = Memory.readByte s.mem x) :
    StoresAt a (v :: ws) s t := by
  refine ⟨fun k w hw => ?_, fun x hx => ?_⟩
  · cases k with
    | zero => exact hv 0 w hw
    | succ k =>
      rw [← slot_address_succ]
      exact hws k w hw
  · obtain ⟨h1, h2⟩ := not_or.1 (mt inWords_succ_iff.2 hx)
    exact hb x h1 h2

/-- What is stored depends on the mapping and on the memory before alone. -/
theorem StoresAt.congr (h : StoresAt a ws s t) (hp : physOf u = physOf s) (hm : u.mem = s.mem) : StoresAt a ws u t := by
  unfold StoresAt InWords
  rw [hp, hm]
  exact h

theorem InWords.congr {x : Nat} (h : InWords s a n x) (hp : physOf u = physOf s) : InWords u a n x := by
  unfold InWords
  rw [hp]
  exact h

/-- A word is stored, then those after it. -/
theorem StoresAt.cons_first (hn : ws.length ≤ 4095) (hp : physOf u = physOf s) (hv : StoresAt a [v] s u)
    (hws : StoresAt (a + 1) ws u t) : StoresAt a (v :: ws) s t := by
  refine storesAt_cons_of_parts (hv.words_of_bytes fun x hx => hws.2 x fun h => ?_) (hp ▸ hws.1) fun x h1 h2 => ?_
  · exact inWords_one_disjoint hn hx (h.congr hp.symm)
  · rw [hws.2 x fun h => h2 (h.congr hp.symm), hv.2 x h1]

/-- A word is stored, after those that follow it in memory. -/
theorem StoresAt.cons_last (hn : ws.length ≤ 4095) (hp : physOf u = physOf s) (hws : StoresAt (a + 1) ws s u)
    (hv : StoresAt a [v] u t) : StoresAt a (v :: ws) s t := by
  refine storesAt_cons_of_parts (hp ▸ hv.1) (hws.words_of_bytes fun x hx => hv.2 x fun h => ?_) fun x h1 h2 => ?_
  · exact inWords_one_disjoint hn (h.congr hp.symm) hx
  · rw [hv.2 x fun h => h1 (h.congr hp.symm), hws.2 x h2]

theorem storesAt_nil (h : t.mem = s.mem) : StoresAt a [] s t :=
  ⟨fun k v hv => by simp at hv, fun x _ => by rw [h]⟩

/-! ## The stores of words (45_store R520) -/

/-- Writing of memory, of registers and of the schedule changes nothing that a store depends on. -/
theorem Writable.with_mem_regs_env (h : Writable s a) (hu : u = { s with mem := u.mem, regs := u.regs, env := u.env }) :
    Writable u a := by
  rw [hu]
  exact (refFault_congr (s := s) (t := { s with mem := u.mem, regs := u.regs, env := u.env }) rfl rfl rfl rfl rfl _ _ _ _).trans h

theorem physOf_with_mem_regs_env (hu : u = { s with mem := u.mem, regs := u.regs, env := u.env }) : physOf u = physOf s := by
  rw [hu]
  exact funext fun _ =>
    translate_congr (s := s) (t := { s with mem := u.mem, regs := u.regs, env := u.env }) rfl rfl _ _

/-- A store after its turn, to a word that may be written. -/
theorem store_storeResult (v : Word) (hw : Memory.wf s.mem = true) (ht : takeTurn s = .ok u) (ha : Writable u a) :
    ∃ t, store a v s = .ok t ∧ StoreResult a [v] u t ∧ Memory.wf t.mem = true :=
  ⟨_, store_of_writable v ht ha, ⟨rfl, storesAt_writeWord (takeTurn_wf ht hw) rfl⟩,
    Memory.wf_writeWord _ v (takeTurn_wf ht hw)⟩

theorem storeAll_one_completes (w : Word) (hw : Memory.wf s.mem = true) (ht : takeTurn s = .ok u) (ha : Writable u a) :
    Completes (storeAll a [w] s) (StoreResult a [w] u) := by
  obtain ⟨t, hstore, hres, -⟩ := store_storeResult w hw ht ha
  rw [storeAll, storeWords, hstore]
  exact ⟨t, rfl, hres⟩

/-- Stores of up to a page of words in quiet turns, each to a word that may be written. -/
theorem storeWords_storeResult : ∀ {ws : List Word} {a : Word} {s : State}, ws.length ≤ 4096 → Memory.wf s.mem = true →
    QuietFor ws.length s → WritableWords s a ws.length →
    ∃ t, storeWords a ws s = .ok t ∧ StoreResult a ws (afterTurns ws.length s) t
  | [], a, s, _, _, _, _ => ⟨s, rfl, rfl, storesAt_nil rfl⟩
  | v :: ws, a, s, hn, hw, hq, ha => by
    have hn' : ws.length ≤ 4095 := Nat.le_of_succ_le_succ hn
    have ha0 : Writable s a := by simpa using ha 0 (Nat.succ_pos _)
    obtain ⟨u, hstore, ⟨hu, hv⟩, hwu⟩ := store_storeResult v hw (takeTurn_of_quiet hq) (writable_afterTurns ha0)
    have hue : u.env = (afterTurns 1 s).env := by rw [hu]
    have hus : u = { s with mem := u.mem, regs := u.regs, env := u.env } := by rw [hu]; rfl
    have hqu : QuietFor ws.length u := by
      rw [QuietFor, hue]
      exact hq.tail
    have hau : WritableWords u (a + 1) ws.length := fun k hk => by
      rw [slot_address_succ]
      exact (ha (k + 1) (Nat.succ_lt_succ hk)).with_mem_regs_env hus
    obtain ⟨t, hrun, ht, hws⟩ := storeWords_storeResult (by omega) hwu hqu hau
    have hpu := physOf_with_mem_regs_env hus
    have hafter : afterTurns ws.length u = { afterTurns (ws.length + 1) s with mem := u.mem } := by
      rw [hu]
      simp [afterTurns, Nat.add_comm]
    refine ⟨t, by rw [storeWords, hstore]; exact hrun, ?_, ?_⟩
    · rw [ht, hafter]
      rfl
    · exact StoresAt.cons_first hn' hpu hv hws

end

/-! ## The words of a pair, of a triple and of a merge (10_state R132; 45_store R532, R535, R537) -/

theorem wordsOf2_pair (s : State) (r : Reg) : wordsOf2 (s.pair r) = [s.reg r, s.reg (r + 1)] := by
  have hfirst : (s.reg r ++ s.reg (r + 1)).extractLsb' 16 16 = s.reg r := BitVec.extractLsb'_append_eq_left
  have hsecond : (s.reg r ++ s.reg (r + 1)).extractLsb' 0 16 = s.reg (r + 1) := BitVec.extractLsb'_append_eq_right
  exact congrArg₂ (fun x y : Word => [x, y]) hfirst hsecond

theorem wordsOf3_triple (s : State) (r : Reg) : wordsOf3 (s.triple r) = [s.reg r, s.reg (r + 1), s.reg (r + 2)] := by
  have hhead : wordsOf3 (s.triple r) = wordsOf2 (s.pair r) ++ [s.reg (r + 2)] := by
    have hfirst : (s.triple r).extractLsb' 32 16 = (s.pair r).extractLsb' 16 16 :=
      BitVec.extractLsb'_append_eq_of_le (by decide)
    have hsecond : (s.triple r).extractLsb' 16 16 = (s.pair r).extractLsb' 0 16 :=
      BitVec.extractLsb'_append_eq_of_le (by decide)
    have hthird : (s.triple r).extractLsb' 0 16 = s.reg (r + 2) := BitVec.extractLsb'_append_eq_right
    rw [wordsOf3, hfirst, hsecond, hthird]
    rfl
  rw [hhead, wordsOf2_pair]
  rfl

theorem bitAt_and (x y : Word) (n : BitNo) : bitAt (x &&& y) n = (bitAt x n && bitAt y n) := BitVec.getLsbD_and

theorem bitAt_throughMask (t d m : Word) (n : BitNo) :
    bitAt (throughMask t d m) n = if bitAt m n = true then bitAt d n else bitAt t n := by
  rw [throughMask, bitAt_or, bitAt_and_not, bitAt_and]
  cases bitAt m n <;> simp

/-- Two bytes as a word, as an exact number. -/
theorem append_eq_ofNat (x y : Byte) : x ++ y = BitVec.ofNat 16 (x.toNat * 256 + y.toNat) := by
  apply BitVec.eq_of_toNat_eq
  rw [toNat_append_eq, BitVec.toNat_ofNat]
  omega

/-! ## The stores of one, two and three words and of several registers (45_store R521 to R526, R528 to R531, R533, R534) -/

section
variable {s u v : State} {a d : Word}

theorem storeAll_completes {ws : List Word} (hn : ws.length ≤ 4096) (hw : Memory.wf s.mem = true)
    (hq : QuietFor ws.length s) (ha : WritableWords s a ws.length) :
    Completes (storeAll a ws s) (StoreResult a ws (afterTurns ws.length s)) := by
  obtain ⟨t, hrun, hres⟩ := storeWords_storeResult hn hw hq ha
  exact ⟨t, andThen_of_ok .next hrun, hres⟩

theorem load_reg (h : load a s = .ok (d, u)) (r : Reg) : u.reg r = s.reg r :=
  congrArg (fun rs => rs.get r) (load_keeps h).1

end

/-- Settles O37: each form is `storeAll` of its words at its address; the indirect forms store the words of the
instruction's start, for reading the pointer leaves the registers. -/
theorem storesPutWordsInMemory : Obligations.StoresPutWordsInMemory := by
  unfold Obligations.StoresPutWordsInMemory
  intro s ra rx br addr x n hw one puts two
  have hone : ∀ {a w u}, Memory.wf u.mem = true → ∀ v, takeTurn u = .ok v → Writable v a →
      Completes (storeAll a [w] u) (StoreResult a [w] v) := fun hwu _ ht ha => storeAll_one_completes _ hwu ht ha
  have htwo : ∀ {a u} (r : Reg), Memory.wf u.mem = true → QuietFor 2 u → WritableWords u a 2 →
      Completes (storeAll a (wordsOf2 (u.pair r)) u)
        (StoreResult a [u.reg r, u.reg (r + 1)] (afterTurns 2 u)) := fun {a u} r hwu hq ha => by
    rw [wordsOf2_pair]
    exact storeAll_completes (by simp) hwu hq ha
  refine ⟨hone hw, hone hw, hone hw, hone hw, htwo ra hw, htwo 0 hw, htwo 0 hw, ?efst, ?stm, ?indirect⟩
  case efst =>
    intro hq ha
    change Completes (storeAll _ (wordsOf3 (s.triple ra)) s) _
    rw [wordsOf3_triple]
    exact storeAll_completes (by simp) hw hq ha
  case stm =>
    have hlen : (firstRegs (n.val + 1) s).length ≤ 4096 := by
      rw [firstRegs, List.length_map, List.length_range]
      omega
    exact storeAll_completes hlen hw
  case indirect =>
    intro a u hp
    have hwu : Memory.wf u.mem = true := load_wf hp hw
    refine ⟨fun v ht ha => ?_, fun v ht ha => ?_, fun hq ha => ?_⟩
    · change Completes (withPointer rx addr s fun a s => storeAll a [s.reg ra] s) _
      rw [withPointer_of_load _ hp, load_reg hp]
      exact hone hwu v ht ha
    · change Completes (withPointer rx addr s fun a s => storeAll a [smallConstant n] s) _
      rw [withPointer_of_load _ hp]
      exact hone hwu v ht ha
    · change Completes (withPointer rx addr s fun a s => storeAll a (wordsOf2 (s.pair ra)) s)
        (StoreResult a [s.reg ra, s.reg (ra + 1)] (afterTurns 2 u))
      rw [withPointer_of_load _ hp, ← load_reg hp, ← load_reg hp]
      exact htwo ra hwu hq ha

/-! ## The stores of a byte and through a mask (45_store R532, R535 to R538) -/

section
variable {s u v : State} {ra rx : Reg} {addr a d : Word}

theorem storeUpperFrom_completes (ra : Reg) (hw : Memory.wf s.mem = true) (hl : load a s = .ok (d, u))
    (ht : takeTurn u = .ok v) (ha : Writable v a) : Completes (storeUpperFrom ra a s)
      (StoreResult a [BitVec.ofNat 16 ((s.reg ra).toNat % 256 * 256 + d.toNat % 256)] v) := by
  rw [storeUpperFrom, ← lowerByte_toNat, ← lowerByte_toNat, ← append_eq_ofNat]
  exact updateWord_completes _ hw hl ht ha

theorem storeLowerFrom_completes (ra : Reg) (hw : Memory.wf s.mem = true) (hl : load a s = .ok (d, u))
    (ht : takeTurn u = .ok v) (ha : Writable v a) : Completes (storeLowerFrom ra a s)
      (StoreResult a [BitVec.ofNat 16 (d.toNat / 256 * 256 + (s.reg ra).toNat % 256)] v) := by
  rw [storeLowerFrom, ← lowerByte_toNat, ← upperByte_toNat, ← append_eq_ofNat]
  exact updateWord_completes _ hw hl ht ha

theorem exec_srm_completes (ra rx : Reg) (addr : Word) (hw : Memory.wf s.mem = true)
    (hl : load (daLong rx addr s) s = .ok (d, u)) (ht : takeTurn u = .ok v) (ha : Writable v (daLong rx addr s)) :
    Completes (exec (.srm ra rx addr) s) fun t => ∃ w, StoreResult (daLong rx addr s) [w] v t ∧ ∀ m : BitNo,
      bitAt w m = if bitAt (s.reg (ra + 1)) m = true then bitAt (s.reg ra) m else bitAt d m := by
  change Completes (updateWord (daLong rx addr s) (fun t => throughMask t (s.reg ra) (s.reg (ra + 1))) s) _
  exact (updateWord_completes _ hw hl ht ha).imp fun _ hs => ⟨_, hs, bitAt_throughMask d _ _⟩

theorem exec_subi_of_pointer (h : daIndirect rx addr s = .ok (a, u)) :
    exec (.subi ra rx addr) s = storeUpperFrom ra a u :=
  withPointer_of_load (storeUpperFrom ra) h

theorem exec_slbi_of_pointer (h : daIndirect rx addr s = .ok (a, u)) :
    exec (.slbi ra rx addr) s = storeLowerFrom ra a u :=
  withPointer_of_load (storeLowerFrom ra) h

end

/-- Settles O38: every form writes a merge of the word it read back; the indirect ones merge in the registers of the
instruction's start. -/
theorem partialStoresMergeIntoWord : Obligations.PartialStoresMergeIntoWord := by
  unfold Obligations.PartialStoresMergeIntoWord
  intro s s0 u v ra rx addr a d hw hl ht ha
  refine ⟨fun hs hda => ?_, fun hp => ?_⟩
  · subst hs hda
    exact ⟨exec_srm_completes ra rx addr hw hl ht ha, storeUpperFrom_completes ra hw hl ht ha,
      storeLowerFrom_completes ra hw hl ht ha⟩
  · have hw0 : Memory.wf s0.mem = true := load_wf hp hw
    rw [exec_subi_of_pointer hp, exec_slbi_of_pointer hp, ← load_reg hp ra]
    exact ⟨storeUpperFrom_completes ra hw0 hl ht ha, storeLowerFrom_completes ra hw0 hl ht ha⟩

/-! ## PSHM (45_store R540) -/

/-- The state before a store of PSHM: R15 is decremented. -/
def stackDown (s : State) : State := s.setReg 15 (s.reg 15 - 1)

/-- What the i-th store of PSHM writes: the register i below `r`, R15 itself as decremented for its own slot. -/
def pushedWord (r : Reg) (s : State) (i : Nat) : Word :=
  if r - Fin.ofNat 16 i = 15 then s.reg 15 - BitVec.ofNat 16 (i + 1) else s.reg (r - Fin.ofNat 16 i)

/-- What `k` stores of PSHM leave, from the lowest address on: the last one first. -/
def pushedWords (k : Nat) (r : Reg) (s : State) : List Word := (List.range k).map fun j => pushedWord r s (k - 1 - j)

@[simp] theorem pushedWords_length (k : Nat) (r : Reg) (s : State) : (pushedWords k r s).length = k := by
  simp [pushedWords]

theorem pushedWords_succ (k : Nat) (r : Reg) (s : State) :
    pushedWords (k + 1) r s = pushedWord r s k :: pushedWords k r s := by
  rw [pushedWords, List.range_succ_eq_map, List.map_cons, List.map_map, pushedWords]
  congr 1
  refine List.map_congr_left fun j _ => congrArg (pushedWord r s) ?_
  omega

/-- After `k` words pushed from `r` down, in quiet turns: they stand below the old stack pointer, R15 at the last. -/
structure Pushed (k : Nat) (r : Reg) (s t : State) : Prop where
  wf : Memory.wf t.mem = true
  result : StoreRegsResult [15] (s.reg 15 - BitVec.ofNat 16 k) (pushedWords k r s) (afterTurns k s) t
  sp : t.reg 15 = s.reg 15 - BitVec.ofNat 16 k
  ic : t.ic = s.ic

section
variable {k m : Nat} {r : Reg} {s t u : State} {a : Word} {o : Out}

theorem pushRegs_of_store (h : store ((stackDown s).reg 15) ((stackDown s).reg r) (stackDown s) = .ok u) :
    pushRegs (k + 1) r s = pushRegs k (r - 1) u := by
  unfold stackDown at h
  simp only [pushRegs, h]

theorem pushRegs_of_store_error (h : store ((stackDown s).reg 15) ((stackDown s).reg r) (stackDown s) = .error o) :
    pushRegs (k + 1) r s = .error o := by
  unfold stackDown at h
  simp only [pushRegs, h]

theorem slot_address_below (a : Word) (k : Nat) : a - BitVec.ofNat 16 (k + 1) + 1 = a - BitVec.ofNat 16 k := by
  rw [BitVec.ofNat_add]
  bv_omega

theorem slot_address_from_below {i : Nat} (h : m + i = k) :
    a - BitVec.ofNat 16 k + BitVec.ofNat 16 m = a - BitVec.ofNat 16 i := by
  rw [← h, BitVec.ofNat_add]
  bv_omega

theorem Pushed.none (hw : Memory.wf s.mem = true) : Pushed 0 r s s :=
  ⟨hw, ⟨rfl, fun _ _ => rfl, storesAt_nil rfl⟩, (BitVec.sub_zero _).symm, rfl⟩

theorem Pushed.frame (h : Pushed k r s t) : t = { s with mem := t.mem, regs := t.regs, env := s.env.drop k } := by
  obtain ⟨ht, -⟩ := h.result
  rw [ht, h.ic]
  rfl

/-- The state in which the next store is checked: a turn has passed and R15 points at its word. -/
theorem Pushed.stackDown_result (h : Pushed k r s t) : StoreRegsResult [15] (s.reg 15 - BitVec.ofNat 16 k)
    (pushedWords k r s) (afterTurns (k + 1) s) (afterTurns 1 (stackDown t)) := by
  obtain ⟨ht, hkeeps, hstores⟩ := h.result
  refine ⟨?_, fun q hq => ?_, hstores⟩
  · rw [ht]
    simp [stackDown, State.setReg, afterTurns]
  · exact (State.reg_setReg_other t _ (mt List.mem_singleton.2 hq)).trans (hkeeps q hq)

theorem Pushed.stackDown_sp (h : Pushed k r s t) : (stackDown t).reg 15 = s.reg 15 - BitVec.ofNat 16 (k + 1) := by
  rw [stackDown, State.reg_setReg_same, h.sp, ← slot_address_below, BitVec.add_sub_cancel]

theorem Pushed.stackDown_reg (h : Pushed k r s t) : (stackDown t).reg (r - Fin.ofNat 16 k) = pushedWord r s k := by
  unfold pushedWord
  split
  · next h15 => rw [h15, h.stackDown_sp]
  · next h15 =>
    rw [stackDown, State.reg_setReg_other t _ h15]
    exact h.result.2.1 _ (mt List.mem_singleton.1 h15)

theorem Pushed.stackDown_frame (h : Pushed k r s t) : afterTurns 1 (stackDown t) =
    { s with mem := (afterTurns 1 (stackDown t)).mem, regs := (afterTurns 1 (stackDown t)).regs,
             env := (afterTurns 1 (stackDown t)).env } := by
  rw [h.frame]
  rfl

/-- The turn before the next store, when it is quiet. -/
theorem Pushed.takeTurn_stackDown (h : Pushed k r s t) (hq : QuietFor (k + 1) s) :
    takeTurn (stackDown t) = .ok (afterTurns 1 (stackDown t)) := by
  have hq1 := hq.nth (Nat.lt_succ_self k)
  refine takeTurn_of_quiet (n := 0) ?_
  rw [QuietFor, stackDown, State.setReg_env, h.frame]
  exact hq1

/-- One more word is pushed. -/
theorem Pushed.push (h : Pushed k r s t) (hk : k ≤ 15) (hq : QuietFor (k + 1) s)
    (ha : Writable s (s.reg 15 - BitVec.ofNat 16 (k + 1))) : ∃ u,
      store ((stackDown t).reg 15) ((stackDown t).reg (r - Fin.ofNat 16 k)) (stackDown t) = .ok u ∧
        Pushed (k + 1) r s u := by
  rw [h.stackDown_sp, h.stackDown_reg]
  obtain ⟨u, hstore, ⟨hu, hv⟩, hwu⟩ := store_storeResult (s := stackDown t) (pushedWord r s k) h.wf
    (h.takeTurn_stackDown hq) (ha.with_mem_regs_env h.stackDown_frame)
  obtain ⟨hw, hkeeps, hws⟩ := h.stackDown_result
  have hregs : ∀ q, u.reg q = (stackDown t).reg q := fun q => by rw [hu]; rfl
  refine ⟨u, hstore, hwu, ⟨?_, fun q hq => (hregs q).trans (hkeeps q hq), ?_⟩, ?_, ?_⟩
  · rw [hu, hw]
  · rw [pushedWords_succ]
    rw [← slot_address_below] at hws
    exact hws.cons_last (by rw [pushedWords_length]; omega) (physOf_with_mem_regs_env h.stackDown_frame) hv
  · rw [hregs, h.stackDown_sp]
  · rw [hu]
    exact h.ic

/-- Quiet stores of PSHM to words that may be written, the rest of the instruction after them. -/
theorem pushRegs_of_writable (r : Reg) (hw : Memory.wf s.mem = true) : ∀ {k : Nat}, k ≤ 16 → QuietFor k s →
    (∀ i, i < k → Writable s (s.reg 15 - BitVec.ofNat 16 (i + 1))) → ∀ m, ∃ t,
      pushRegs (k + m) r s = pushRegs m (r - Fin.ofNat 16 k) t ∧ Pushed k r s t
  | 0, _, _, _, m => ⟨s, by rw [Nat.zero_add]; exact congrArg (pushRegs m · s) (sub_zero r).symm, .none hw⟩
  | k + 1, hk, hq, ha, m => by
    obtain ⟨t, hrun, ht⟩ := pushRegs_of_writable r hw (by omega) (hq.mono (Nat.le_succ k))
      (fun i hi => ha i (Nat.lt_succ_of_lt hi)) (m + 1)
    obtain ⟨u, hstore, hu⟩ := ht.push (Nat.le_of_succ_le_succ hk) hq (ha k (Nat.lt_succ_self k))
    have hr : r - Fin.ofNat 16 k - 1 = r - Fin.ofNat 16 (k + 1) := by
      ext
      simp only [Fin.sub_def, Fin.ofNat]
      omega
    refine ⟨u, ?_, hu⟩
    rw [show k + 1 + m = k + (m + 1) by omega, hrun, pushRegs_of_store hstore, hr]

/-- A word that may not be written for another reason than its protection ends the instruction. -/
theorem store_of_fault {f : RefFault} (v : Word) (ht : takeTurn s = .ok u)
    (hf : refFault u .cpu (operAccess u) true a = some f) (hne : f ≠ .writeProtect) :
    store a v s = .error (.next (memFault .cpu (operAccess u) a f u)) := by
  have hs : operAccess s = operAccess u := by
    rw [takeTurn_keeps ht]
    rfl
  rcases writeNow_cases (operAccess u) a v u with ⟨h1, -⟩ | ⟨h1, -⟩ | ⟨g, -, h1, h2⟩ <;> rw [hf] at h1 <;> cases h1
  · exact (hne rfl).elim
  · rw [store, writeRef, ht, hs]
    exact congrArg orAbandon h2

/-- The words of PSHM as the writable ones of a range, counted from the stack pointer down. -/
theorem WritableWords.below (ha : WritableWords s (a - BitVec.ofNat 16 k) k) :
    ∀ i, i < k → Writable s (a - BitVec.ofNat 16 (i + 1)) := by
  intro i hi
  have h := ha (k - (i + 1)) (by omega)
  rwa [slot_address_from_below (show k - (i + 1) + (i + 1) = k by omega)] at h

end

/-- The registers of a range counted from its first and from its last. -/
theorem range_reg_from_last (ra rb : Reg) {k : Nat} (hk : k ≤ (rb - ra).val) :
    rb - Fin.ofNat 16 ((rb - ra).val - k) = ra + Fin.ofNat 16 k := by
  ext
  simp only [Fin.sub_def, Fin.add_def, Fin.ofNat] at hk ⊢
  omega

/-- The whole range, from its lowest word on. -/
theorem pushedWords_rangeCount (ra rb : Reg) (s : State) : pushedWords (rangeCount ra rb) rb s =
    (List.range (rangeCount ra rb)).map fun k =>
      if ra + Fin.ofNat 16 k = 15 then s.reg 15 - BitVec.ofNat 16 (rangeCount ra rb) + BitVec.ofNat 16 k
      else s.reg (ra + Fin.ofNat 16 k) := by
  refine List.map_congr_left fun k hk => ?_
  have hk' : k ≤ (rb - ra).val := Nat.le_of_lt_succ (List.mem_range.1 hk)
  rw [rangeCount, Nat.add_sub_cancel, pushedWord, range_reg_from_last ra rb hk',
    slot_address_from_below (show k + ((rb - ra).val - k + 1) = (rb - ra).val + 1 by omega)]

/-- The words stored before an absent one. -/
theorem pushedWords_eq_map (k : Nat) (r : Reg) (s : State) : pushedWords k r s = (List.range k).map fun j =>
    if r - Fin.ofNat 16 (k - 1 - j) = 15 then s.reg 15 - BitVec.ofNat 16 (k - j) else s.reg (r - Fin.ofNat 16 (k - 1 - j)) := by
  refine List.map_congr_left fun j hj => ?_
  have hj' : j < k := List.mem_range.1 hj
  rw [pushedWord, show k - 1 - j + 1 = k - j by omega]

/-- Settles O39: `k` words are pushed in quiet turns; then the range is done, or the next store faults after its turn, with
R15 already at its word. -/
theorem pushMultipleStoresRegisters : Obligations.PushMultipleStoresRegisters := by
  unfold Obligations.PushMultipleStoresRegisters
  intro s ra rb hw n bottom
  have hn : n ≤ 16 := (rb - ra).isLt
  refine ⟨fun hq ha => ?_, fun k hk hq ha hf => ?_⟩
  · obtain ⟨t, hrun, ht⟩ := pushRegs_of_writable rb hw hn hq ha.below 0
    have hwords : pushedWords n rb s = _ := pushedWords_rangeCount ra rb s
    exact ⟨t, andThen_of_ok .next hrun, hwords ▸ ht.result, ht.sp, ht.ic⟩
  · obtain ⟨t, hrun, ht⟩ := pushRegs_of_writable rb hw (by omega) (hq.mono (Nat.le_succ k)) ha.below (n - k - 1 + 1)
    have haccess : operAccess (afterTurns 1 (stackDown t)) = operAccess s := by rw [ht.stackDown_frame]; rfl
    have hfault : refFault (afterTurns 1 (stackDown t)) .cpu (operAccess (afterTurns 1 (stackDown t))) true
        ((stackDown t).reg 15) = some .illegalAddress := by
      rw [haccess, ht.stackDown_sp, ← hf, ht.stackDown_frame]
      exact refFault_congr rfl rfl rfl rfl rfl _ _ _ _
    have hstore := store_of_fault ((stackDown t).reg (rb - Fin.ofNat 16 k)) (ht.takeTurn_stackDown hq) hfault nofun
    have hrange : rangeCount ra rb = k + (n - k - 1 + 1) := show n = _ by omega
    have hfaulted := memFault_refFaulted .cpu (operAccess s) (s.reg 15 - BitVec.ofNat 16 (k + 1)) .illegalAddress
      (afterTurns 1 (stackDown t))
    refine ⟨_, ?_, afterTurns 1 (stackDown t), pushedWords_eq_map k rb s ▸ ht.stackDown_result, ht.stackDown_sp, ht.ic,
      hfaulted⟩
    change andThen (pushRegs (rangeCount ra rb) rb s) .next = _
    rw [hrange, hrun, pushRegs_of_store_error hstore, haccess, ht.stackDown_sp]
    rfl

/-! ## MOV (45_store R527) -/

theorem movRegisters_reg (ra rb : Reg) (s : State) (r : Reg) : (movRegisters ra rb s).reg r =
    s.reg r + (if r = ra then 1 else 0) + (if r = rb then 1 else 0) - if r = ra + 1 then 1 else 0 := by
  have hset : ∀ (t : State) (p : Reg) (x : Word), (t.setReg p (t.reg p + x)).reg r = t.reg r + if r = p then x else 0 := by
    intro t p x
    rw [State.reg_setReg]
    split
    · next h => rw [h]
    · exact (BitVec.add_zero _).symm
  have hsub : ∀ (t : State) (p : Reg), (t.setReg p (t.reg p - 1)).reg r = t.reg r - if r = p then 1 else 0 := by
    intro t p
    rw [State.reg_setReg]
    split
    · next h => rw [h]
    · exact (BitVec.sub_zero _).symm
  rw [movRegisters, hsub, hset, hset]

theorem movRegisters_keeps (ra rb : Reg) (s : State) : KeepsRegs [ra, rb, ra + 1] s (movRegisters ra rb s) := by
  intro r hr
  obtain ⟨h1, h2, h3⟩ : r ≠ ra ∧ r ≠ rb ∧ r ≠ ra + 1 := by simpa using hr
  simp [movRegisters_reg, h1, h2, h3]

/-- Where IC is after one word of MOV: at the MOV until the count is exhausted. -/
def movCounter (ra : Reg) (i : Word) (s : State) : Word := if s.reg (ra + 1) = 0x0000#16 then s.ic else i

/-- MOV of one word, once it is read and stored. -/
theorem exec_mov_of_store {s u t : State} {ra rb : Reg} {d : Word} (hn : s.reg (ra + 1) ≠ 0x0000#16)
    (hl : load (s.reg rb) s = .ok (d, u)) (hs : store (u.reg ra) d u = .ok t) :
    exec (.mov ra rb) s = .next { movRegisters ra rb t with ic := movCounter ra (u.ic - 1) (movRegisters ra rb t) } := by
  change execMov ra rb s = _
  rw [execMov, if_neg hn, withWord_of_load _ hl, andThen_of_ok _ hs, movCounter]
  dsimp only
  split <;> rfl

/-- Settles O40: the count is looked at first; then the word read is stored in the memory that the turn between left, and
the registers count. -/
theorem moveTransfersOneWord : Obligations.MoveTransfersOneWord := by
  unfold Obligations.MoveTransfersOneWord
  intro s ra rb
  refine ⟨fun hz => if_pos hz, fun u v d hn hw hl ht ha => ?_⟩
  rw [← load_reg hl ra] at ha ⊢
  obtain ⟨t, hstore, ⟨ht', hmem⟩, -⟩ := store_storeResult d (load_wf hl hw) ht ha
  have hvregs : ∀ r, v.reg r = s.reg r := fun r => by
    rw [← load_reg hl, takeTurn_keeps ht]
    rfl
  have htregs : ∀ r, t.reg r = s.reg r := fun r => by
    rw [← hvregs, ht']
    rfl
  have huic : u.ic = s.ic := by rw [takeTurn_keeps (load_ok hl).1]
  have htic : t.ic = s.ic := by rw [ht', takeTurn_keeps ht, huic]
  refine ⟨_, exec_mov_of_store hn hl hstore, ⟨?_, ?_, hmem⟩, fun r => ?_, ?_⟩
  · rw [ht']
    rfl
  · exact fun r hr => (movRegisters_keeps ra rb t r hr).trans ((htregs r).trans (hvregs r).symm)
  · rw [← htregs]
    exact movRegisters_reg ra rb t r
  · change movCounter ra (u.ic - 1) (movRegisters ra rb t) = _
    rw [movCounter, huic, show (movRegisters ra rb t).ic = s.ic from htic]
    rfl

end Sys2Proof.Machine

/-! # Integer addition and subtraction (46_int_addsub)

The sums, differences, magnitudes and negatives of the model as exact integers, with their carry and overflow, what a
result of one of them completes with in registers and in memory, and the three statements about the family. -/

namespace Sys2Proof.Machine

/-! ## Sums and differences as exact integers (46_int_addsub R560) -/

section
variable {w : Nat} (x y : BitVec w)

theorem add_eq_ofInt : x + y = BitVec.ofInt w (x.toInt + y.toInt) := by
  rw [BitVec.ofInt_add, BitVec.ofInt_toInt, BitVec.ofInt_toInt]

theorem neg_eq_ofInt : -x = BitVec.ofInt w (-x.toInt) := by
  rw [BitVec.ofInt_neg, BitVec.ofInt_toInt]

theorem sub_eq_ofInt : x - y = BitVec.ofInt w (x.toInt - y.toInt) := by
  rw [BitVec.sub_eq_add_neg, neg_eq_ofInt, Int.sub_eq_add_neg, BitVec.ofInt_add, BitVec.ofInt_toInt]

/-- The rule of the signs finds the sums that do not fit. -/
theorem addOverflow_iff : addOverflow x y = true ↔ Unrepresentable w (x.toInt + y.toInt) := by
  have hsigns : addOverflow x y = x.saddOverflow y := by
    rw [BitVec.saddOverflow_eq]
    rfl
  rw [hsigns, BitVec.saddOverflow, Bool.or_comm]
  exact outsideSigned_iff _

/-- The rule of the signs finds the differences that do not fit. -/
theorem subOverflow_iff : subOverflow x y = true ↔ Unrepresentable w (x.toInt - y.toInt) := by
  have hsigns : subOverflow x y = x.ssubOverflow y := by
    rw [BitVec.ssubOverflow_eq, subOverflow]
    cases x.msb <;> cases y.msb <;> simp
  rw [hsigns, BitVec.ssubOverflow, Bool.or_comm]
  exact outsideSigned_iff _

/-- The sign of the result and the carry occupy different bits of CS. -/
theorem csArith_eq (c : Prop) [Decidable c] : csArith (decide c) x = signCS x.toInt ||| carryCS c := by
  rw [csArith, carryCS, csSign_eq]
  by_cases hc : c
  · rw [if_pos (decide_eq_true hc), if_pos hc]
  · rw [if_neg (by simpa using hc), if_neg hc, BitVec.or_zero]

end

/-! ## A sum or a difference in registers (46_int_addsub R561 to R566, R570 to R577, R581, R582) -/

section
variable (ra : Reg) (s : State)

theorem addTo_sumPut (d : Word) : SumPut ra (s.reg ra) d s (addTo ra d s) := by
  rw [SumPut, ← add_eq_ofInt, ← csArith_eq]
  exact wordResult_of_write s ra _ _ (addOverflow_iff _ d)

theorem subFrom_differencePut (d : Word) : DifferencePut ra (s.reg ra) d s (subFrom ra d s) := by
  rw [DifferencePut, ← sub_eq_ofInt, ← csArith_eq]
  exact wordResult_of_write s ra _ _ (subOverflow_iff _ d)

theorem addTo2_sumPut2 (d : DWord) : SumPut2 ra (s.pair ra) d s (addTo2 ra d s) := by
  rw [SumPut2, ← add_eq_ofInt, ← csArith_eq]
  exact pairResult_of_write s ra _ _ (addOverflow_iff _ d)

theorem subFrom2_differencePut2 (d : DWord) : DifferencePut2 ra (s.pair ra) d s (subFrom2 ra d s) := by
  rw [DifferencePut2, ← sub_eq_ofInt, ← csArith_eq]
  exact pairResult_of_write s ra _ _ (subOverflow_iff _ d)

end

/-- An operation on the operand in memory, once it is one on any operand. -/
theorem withWord_withWordAt {f : Word → State → State} {P : Word → State → State → Prop} (hf : ∀ u d, P d u (f d u))
    (a : Word) (s : State) : WithWordAt a s (withWord a s fun d u => .next (f d u)) P := by
  intro d u hl
  rw [withWord_of_load _ hl]
  exact ⟨_, rfl, hf u d⟩

/-- The same for a double word. -/
theorem withDouble_withDoubleAt {f : DWord → State → State} {P : DWord → State → State → Prop} (hf : ∀ u d, P d u (f d u))
    (a : Word) (s : State) : WithDoubleAt a s (withDouble a s fun d u => .next (f d u)) P := by
  intro d u hl
  rw [withDouble_of_load2 _ hl]
  exact ⟨_, rfl, hf u d⟩

/-- Settles O41: the forms of one operation differ in where its operand comes from. -/
theorem additionsAndSubtractionsPutResult : Obligations.AdditionsAndSubtractionsPutResult := by
  unfold Obligations.AdditionsAndSubtractionsPutResult
  refine ⟨⟨?ar, ⟨?ab, ?abx⟩, ?aisp, ?a, ?aim, ?dar, ?da⟩, ?sr, ⟨?sbb, ?sbbx⟩, ?sisp, ?s, ?sim, ?dsr, ?ds⟩
  case ar => exact fun s ra rb => ⟨_, rfl, addTo_sumPut ra s (s.reg rb)⟩
  case ab => exact fun s br dspl => withWord_withWordAt (addTo_sumPut 2) (daBase br dspl s) s
  case abx => exact fun s br rx => withWord_withWordAt (addTo_sumPut 2) (daBaseIndexed br rx s) s
  case aisp => exact fun s ra n => ⟨_, rfl, shortPositive_eq_ofInt n ▸ addTo_sumPut ra s (shortPositive n)⟩
  case a => exact fun s ra rx addr => withWord_withWordAt (addTo_sumPut ra) (daLong rx addr s) s
  case aim => exact fun s ra data => ⟨_, rfl, addTo_sumPut ra s data⟩
  case dar => exact fun s ra rb => ⟨_, rfl, addTo2_sumPut2 ra s (s.pair rb)⟩
  case da => exact fun s ra rx addr => withDouble_withDoubleAt (addTo2_sumPut2 ra) (daLong rx addr s) s
  case sr => exact fun s ra rb => ⟨_, rfl, subFrom_differencePut ra s (s.reg rb)⟩
  case sbb => exact fun s br dspl => withWord_withWordAt (subFrom_differencePut 2) (daBase br dspl s) s
  case sbbx => exact fun s br rx => withWord_withWordAt (subFrom_differencePut 2) (daBaseIndexed br rx s) s
  case sisp => exact fun s ra n => ⟨_, rfl, shortPositive_eq_ofInt n ▸ subFrom_differencePut ra s (shortPositive n)⟩
  case s => exact fun s ra rx addr => withWord_withWordAt (subFrom_differencePut ra) (daLong rx addr s) s
  case sim => exact fun s ra data => ⟨_, rfl, subFrom_differencePut ra s data⟩
  case dsr => exact fun s ra rb => ⟨_, rfl, subFrom2_differencePut2 ra s (s.pair rb)⟩
  case ds => exact fun s ra rx addr => withDouble_withDoubleAt (subFrom2_differencePut2 ra) (daLong rx addr s) s

/-! ## INCM and DECM (46_int_addsub R567, R578) -/

section
variable {n : Nat} (hn : n ≤ 16)
include hn

theorem shortPositive_toNat : (shortPositive n).toNat = n := by
  rw [shortPositive, BitVec.toNat_ofNat, Nat.mod_eq_of_lt (by omega)]

theorem shortPositive_toInt : (shortPositive n).toInt = n := by
  have hnat := shortPositive_toNat hn
  rw [BitVec.toInt_eq_toNat_of_lt (by omega), hnat]

end

section
variable {s u v : State} {a : Word}

/-- Memory, CS and a conditional fixed point overflow written: all that a result in memory changes. -/
theorem storeSum_completes (r : Word) (carry : Bool) {ovf : Bool} {p : Prop} (hp : ovf = true ↔ p)
    (hw : Memory.wf u.mem = true) (ht : takeTurn u = .ok v) (ha : Writable v a) :
    Completes (storeSum a r carry ovf u) (StoreStatusResult a [r] (csArith carry r) p v) := by
  obtain ⟨t, hstore, ⟨ht', hmem⟩, -⟩ := store_storeResult r hw ht ha
  have hsw : t.sw = v.sw := by rw [ht']
  have hpi : t.pi = v.pi := by rw [ht']
  refine ⟨_, andThen_of_ok _ hstore, ?_, ?_, ?_, ?_, pends_raiseIf hp fixedOverflow hpi⟩
  · rw [raiseIf_eq, ht']
    rfl
  · rw [raiseIf_eq]
    exact hmem
  · rw [raiseIf_eq, KeepsStatus, ← hsw]
    exact statusRest_withCS t.sw _
  · rw [raiseIf_eq]
    exact csOf_withCS t.sw _

variable {rx : Reg} {addr d : Word} (n : Nat)

/-- INCM once its word is read: the sum goes back to the address of the instruction's start. -/
theorem exec_incm_of_load (hl : load (daLong rx addr s) s = .ok (d, u)) :
    exec (.incm n rx addr) s = storeSum (daLong rx addr s) (d + shortPositive n) (addCarry d (shortPositive n))
      (addOverflow d (shortPositive n)) u := by
  change execIncm n rx addr s = _
  rw [execIncm, withWord_of_load _ hl, daLong_congr (load_keeps hl).1]

/-- The same for DECM. -/
theorem exec_decm_of_load (hl : load (daLong rx addr s) s = .ok (d, u)) :
    exec (.decm n rx addr) s = storeSum (daLong rx addr s) (d - shortPositive n) (subCarry d (shortPositive n))
      (subOverflow d (shortPositive n)) u := by
  change execDecm n rx addr s = _
  rw [execDecm, withWord_of_load _ hl, daLong_congr (load_keeps hl).1]

end

/-- Settles O42: the word read goes back with the operand of the short form added or subtracted, which is the number
itself. -/
theorem memoryIncrementAndDecrement : Obligations.MemoryIncrementAndDecrement := by
  unfold Obligations.MemoryIncrementAndDecrement
  intro s u v n rx addr d _ hn hw hl ht ha
  have hwu : Memory.wf u.mem = true := load_wf hl hw
  have hnat : (shortPositive n).toNat = n := shortPositive_toNat hn
  have hint : (shortPositive n).toInt = n := shortPositive_toInt hn
  rw [exec_incm_of_load n hl, exec_decm_of_load n hl]
  generalize shortPositive n = k at hnat hint ⊢
  subst hnat
  rw [← hint, ← add_eq_ofInt, ← sub_eq_ofInt]
  dsimp only
  rw [← csArith_eq, ← csArith_eq]
  exact ⟨storeSum_completes _ _ (addOverflow_iff _ _) hwu ht ha, storeSum_completes _ _ (subOverflow_iff _ _) hwu ht ha⟩

/-! ## Magnitudes and negatives (46_int_addsub R568, R569, R579, R580) -/

section
variable {w : Nat} (x : BitVec w)

theorem absoluteValue_eq_ofInt : absoluteValue x = BitVec.ofInt w |x.toInt| := by
  rw [absoluteValue, BitVec.msb_eq_toInt]
  by_cases hneg : x.toInt < 0
  · rw [if_pos (decide_eq_true hneg), abs_of_neg hneg, neg_eq_ofInt]
  · rw [if_neg (by simpa using hneg), abs_of_nonneg (not_lt.1 hneg), BitVec.ofInt_toInt]

variable {m : BitVec w} (hm : m.toInt = -2 ^ (w - 1))
include hm

/-- Only the most negative number has a negative that does not fit. -/
theorem eq_mostNegative_iff_neg : decide (x = m) = true ↔ Unrepresentable w (-x.toInt) := by
  have hlo := x.le_toInt
  have hhi := x.toInt_lt
  rw [decide_eq_true_iff, ← BitVec.toInt_inj, hm, Unrepresentable]
  omega

/-- Only the most negative number has a magnitude that does not fit. -/
theorem eq_mostNegative_iff_abs : decide (x = m) = true ↔ Unrepresentable w |x.toInt| := by
  have hlo := x.le_toInt
  have hhi := x.toInt_lt
  rw [eq_mostNegative_iff_neg x hm, Unrepresentable, Unrepresentable]
  rcases abs_cases x.toInt with ⟨habs, hsign⟩ | ⟨habs, -⟩
  · rw [habs]
    omega
  · rw [habs]

end

section
variable (s : State) (ra : Reg) {c : Bool} {x : Int}

/-- An exact integer written to a register with the sign of what is stored. -/
theorem intPut_of_write {v : Word} (hv : v = BitVec.ofInt 16 x) (hc : c = true ↔ Unrepresentable 16 x) :
    IntPut ra x s (raiseIf c fixedOverflow (setCS (csSign v) (s.setReg ra v))) := by
  rw [csSign_eq, IntPut, ← hv]
  exact wordResult_of_write s ra v _ hc

/-- The same for a register pair. -/
theorem intPut2_of_write {v : DWord} (hv : v = BitVec.ofInt 32 x) (hc : c = true ↔ Unrepresentable 32 x) :
    IntPut2 ra x s (raiseIf c fixedOverflow (setCS (csSign v) (s.setPair ra v))) := by
  rw [csSign_eq, IntPut2, ← hv]
  exact pairResult_of_write s ra v _ hc

end

/-- Settles O43: each form writes an exact integer, which is outside the width for the most negative operand alone. -/
theorem absoluteValueAndNegation : Obligations.AbsoluteValueAndNegation := by
  unfold Obligations.AbsoluteValueAndNegation
  have hword : (0x8000#16).toInt = -2 ^ (16 - 1) := by decide
  have hdouble : (0x80000000#32).toInt = -2 ^ (32 - 1) := by decide
  refine ⟨?abs, ?neg, ?dabs, ?dneg⟩
  case abs =>
    exact fun s ra rb => ⟨_, rfl, intPut_of_write s ra (absoluteValue_eq_ofInt _) (eq_mostNegative_iff_abs _ hword)⟩
  case neg =>
    exact fun s ra rb => ⟨_, rfl, intPut_of_write s ra (neg_eq_ofInt _) (eq_mostNegative_iff_neg _ hword)⟩
  case dabs =>
    exact fun s ra rb => ⟨_, rfl, intPut2_of_write s ra (absoluteValue_eq_ofInt _) (eq_mostNegative_iff_abs _ hdouble)⟩
  case dneg =>
    exact fun s ra rb => ⟨_, rfl, intPut2_of_write s ra (neg_eq_ofInt _) (eq_mostNegative_iff_neg _ hdouble)⟩

end Sys2Proof.Machine

/-! # Integer multiplication and division (47_int_muldiv)

The exact double product of two words, quotients and remainders with the zero divisor aside, what a quotient and a
remainder written to two registers complete with, and the two statements about the family. -/

namespace Sys2Proof.Machine

/-! ## Products (47_int_muldiv, sections 5.71 to 5.73) -/

section
variable (ra : Reg) (s : State)

theorem mulSingle_intPut (d : Word) : IntPut ra ((s.reg ra).toInt * d.toInt) s (mulSingle ra d s) :=
  intPut_of_write s ra rfl (outsideSigned_iff _)

theorem mulDouble_intPut2 (d : DWord) : IntPut2 ra ((s.pair ra).toInt * d.toInt) s (mulDouble ra d s) :=
  intPut2_of_write s ra rfl (outsideSigned_iff _)

/-- The product of two words fits a double word: its magnitude is at most 2^30. -/
theorem wordProduct_toInt (x y : Word) : (BitVec.ofInt 32 (x.toInt * y.toInt)).toInt = x.toInt * y.toInt := by
  have hlo : -2 ^ (16 * 2 - 2) ≤ x.toInt * y.toInt := BitVec.le_toInt_mul_toInt
  have hhi : x.toInt * y.toInt ≤ 2 ^ (16 * 2 - 2) := BitVec.toInt_mul_toInt_le
  exact BitVec.toInt_ofInt_eq_self (by decide) (by omega) (by omega)

theorem mulToPair_exact (d : Word) :
    PairPut ra (BitVec.ofInt 32 ((s.reg ra).toInt * d.toInt)) s (mulToPair ra d s) ∧
      ((mulToPair ra d s).pair ra).toInt = (s.reg ra).toInt * d.toInt := by
  have hput : PairPut ra (BitVec.ofInt 32 ((s.reg ra).toInt * d.toInt)) s (mulToPair ra d s) := putPair_pairPut ra _ s
  have hpair : (mulToPair ra d s).pair ra = BitVec.ofInt 32 ((s.reg ra).toInt * d.toInt) := State.pair_setPair s ra _
  exact ⟨hput, hpair ▸ wordProduct_toInt _ d⟩

end

/-- Settles O44: the forms of one operation differ in where its operand comes from. -/
theorem multiplicationsPutProduct : Obligations.MultiplicationsPutProduct := by
  unfold Obligations.MultiplicationsPutProduct
  refine ⟨?msr, ?misp, ?misn, ?ms, ?msim, ?mr, ⟨?mb, ?mbx⟩, ?m, ?mim, ?dmr, ?dm⟩
  case msr => exact fun s ra rb => ⟨_, rfl, mulSingle_intPut ra s (s.reg rb)⟩
  case misp => exact fun s ra n => ⟨_, rfl, shortPositive_eq_ofInt n ▸ mulSingle_intPut ra s (shortPositive n)⟩
  case misn => exact fun s ra n => ⟨_, rfl, shortNegative_eq_ofInt n ▸ mulSingle_intPut ra s (shortNegative n)⟩
  case ms => exact fun s ra rx addr => withWord_withWordAt (mulSingle_intPut ra) (daLong rx addr s) s
  case msim => exact fun s ra data => ⟨_, rfl, mulSingle_intPut ra s data⟩
  case mr => exact fun s ra rb => ⟨_, rfl, mulToPair_exact ra s (s.reg rb)⟩
  case mb => exact fun s br dspl => withWord_withWordAt (mulToPair_exact 2) (daBase br dspl s) s
  case mbx => exact fun s br rx => withWord_withWordAt (mulToPair_exact 2) (daBaseIndexed br rx s) s
  case m => exact fun s ra rx addr => withWord_withWordAt (mulToPair_exact ra) (daLong rx addr s) s
  case mim => exact fun s ra data => ⟨_, rfl, mulToPair_exact ra s data⟩
  case dmr => exact fun s ra rb => ⟨_, rfl, mulDouble_intPut2 ra s (s.pair rb)⟩
  case dm => exact fun s ra rx addr => withDouble_withDoubleAt (mulDouble_intPut2 ra) (daLong rx addr s) s

/-! ## Quotients and remainders (47_int_muldiv R600, R601) -/

section
variable (x : Int) {y : Int}

theorem divQuotient_of_zero (hy : y = 0) : divQuotient x y = 0 := if_pos hy

theorem divRemainder_of_zero (hy : y = 0) : divRemainder x y = 0 := if_pos hy

theorem divQuotient_of_ne (hy : y ≠ 0) : divQuotient x y = Int.tdiv x y := if_neg hy

/-- What the quotient leaves has the sign of the dividend: it is the remainder of truncated division. -/
theorem divRemainder_of_ne (hy : y ≠ 0) : divRemainder x y = Int.tmod x y := by
  rw [divRemainder, if_neg hy, Int.tmod_def]

end

section
variable {w : Nat} {d : BitVec w}

theorem eq_zero_iff_toInt : d = 0#w ↔ d.toInt = 0 := by
  rw [← BitVec.toInt_inj, BitVec.toInt_zero]

/-- A zero divisor overflows, whatever the quotient. -/
theorem divideOverflow_of_zero (hd : d.toInt = 0) (q : Int) :
    (decide (d = 0#w) || outsideSigned w q) = true ↔ True := by
  rw [decide_eq_true (eq_zero_iff_toInt.2 hd), Bool.true_or, eq_self]

/-- Another divisor overflows exactly when the quotient does not fit. -/
theorem divideOverflow_of_ne (hd : d.toInt ≠ 0) (q : Int) :
    (decide (d = 0#w) || outsideSigned w q) = true ↔ Unrepresentable w q := by
  rw [decide_eq_false (mt eq_zero_iff_toInt.1 hd), Bool.false_or, outsideSigned_iff]

end

section
variable (ra : Reg) (s : State)

/-- Two registers, CS and a conditional fixed point overflow written. -/
theorem twoResults_of_write (v w : Word) (cs : BitVec 4) {c : Bool} {p : Prop} (hp : c = true ↔ p) :
    TwoResults ra v w cs p s (raiseIf c fixedOverflow (setCS cs ((s.setReg ra v).setReg (ra + 1) w))) := by
  have hkeeps : KeepsRegs [ra, ra + 1] s ((s.setReg ra v).setReg (ra + 1) w) := by
    intro r hr
    obtain ⟨hne, hne'⟩ : r ≠ ra ∧ r ≠ ra + 1 := by simpa using hr
    rw [State.reg_setReg_other _ _ hne', State.reg_setReg_other _ _ hne]
  refine ⟨frame_raiseIf_setCS rfl hkeeps c fixedOverflow cs, ?_, ?_, ?_, pends_raiseIf hp _ rfl⟩
  · rw [raiseIf_eq]
    exact (State.reg_setReg_other _ w (reg_ne_succ ra)).trans (State.reg_setReg_same s ra v)
  · rw [raiseIf_eq]
    exact State.reg_setReg_same _ (ra + 1) w
  · rw [raiseIf_eq]
    exact csOf_withCS s.sw cs

theorem divideTo_twoResults {x q r : Int} {d : Word} {p : Prop} (hq : divQuotient x d.toInt = q)
    (hr : divRemainder x d.toInt = r) (hp : (decide (d = 0x0000#16) || outsideSigned 16 q) = true ↔ p) :
    TwoResults ra (BitVec.ofInt 16 q) (BitVec.ofInt 16 r) (signCS (BitVec.ofInt 16 q).toInt) p s (divideTo ra x d s) := by
  subst hq hr
  rw [← csSign_eq]
  exact twoResults_of_write ra s _ _ _ hp

/-- A division by one word: the zero divisor has its own result. -/
theorem divideTo_quotientPut (x : Int) (d : Word) : QuotientPut ra x d.toInt s (divideTo ra x d s) := by
  unfold QuotientPut
  split
  case isTrue hd =>
    exact divideTo_twoResults ra s (divQuotient_of_zero x hd) (divRemainder_of_zero x hd) (divideOverflow_of_zero hd 0)
  case isFalse hd =>
    exact divideTo_twoResults ra s (divQuotient_of_ne x hd) (divRemainder_of_ne x hd) (divideOverflow_of_ne hd _)

theorem divSingle_quotientPut (d : Word) : QuotientPut ra (s.reg ra).toInt d.toInt s (divSingle ra d s) :=
  divideTo_quotientPut ra s _ d

theorem divPair_quotientPut (d : Word) : QuotientPut ra (s.pair ra).toInt d.toInt s (divPair ra d s) :=
  divideTo_quotientPut ra s _ d

theorem divDouble_pairResult {q : Int} {d : DWord} {p : Prop} (hq : divQuotient (s.pair ra).toInt d.toInt = q)
    (hp : (decide (d = 0x00000000#32) || outsideSigned 32 q) = true ↔ p) :
    PairResult ra (BitVec.ofInt 32 q) (signCS (BitVec.ofInt 32 q).toInt) p s (divDouble ra d s) := by
  subst hq
  rw [← csSign_eq]
  exact pairResult_of_write s ra _ _ hp

theorem divDouble_quotientPut2 (d : DWord) : QuotientPut2 ra (s.pair ra).toInt d.toInt s (divDouble ra d s) := by
  unfold QuotientPut2
  split
  case isTrue hd => exact divDouble_pairResult ra s (divQuotient_of_zero _ hd) (divideOverflow_of_zero hd 0)
  case isFalse hd => exact divDouble_pairResult ra s (divQuotient_of_ne _ hd) (divideOverflow_of_ne hd _)

end

/-- Settles O45: the forms of one operation differ in where its operand comes from. -/
theorem divisionsPutQuotientAndRemainder : Obligations.DivisionsPutQuotientAndRemainder := by
  unfold Obligations.DivisionsPutQuotientAndRemainder
  refine ⟨?dvr, ?disp, ?disn, ?dv, ?dvim, ?dr, ⟨?db, ?dbx⟩, ?d, ?dim, ?ddr, ?dd⟩
  case dvr => exact fun s ra rb => ⟨_, rfl, divSingle_quotientPut ra s (s.reg rb)⟩
  case disp => exact fun s ra n => ⟨_, rfl, shortPositive_eq_ofInt n ▸ divSingle_quotientPut ra s (shortPositive n)⟩
  case disn => exact fun s ra n => ⟨_, rfl, shortNegative_eq_ofInt n ▸ divSingle_quotientPut ra s (shortNegative n)⟩
  case dv => exact fun s ra rx addr => withWord_withWordAt (divSingle_quotientPut ra) (daLong rx addr s) s
  case dvim => exact fun s ra data => ⟨_, rfl, divSingle_quotientPut ra s data⟩
  case dr => exact fun s ra rb => ⟨_, rfl, divPair_quotientPut ra s (s.reg rb)⟩
  case db => exact fun s br dspl => withWord_withWordAt (divPair_quotientPut 2) (daBase br dspl s) s
  case dbx => exact fun s br rx => withWord_withWordAt (divPair_quotientPut 2) (daBaseIndexed br rx s) s
  case d => exact fun s ra rx addr => withWord_withWordAt (divPair_quotientPut ra) (daLong rx addr s) s
  case dim => exact fun s ra data => ⟨_, rfl, divPair_quotientPut ra s data⟩
  case ddr => exact fun s ra rb => ⟨_, rfl, divDouble_quotientPut2 ra s (s.pair rb)⟩
  case dd => exact fun s ra rx addr => withDouble_withDoubleAt (divDouble_quotientPut2 ra) (daLong rx addr s) s

end Sys2Proof.Machine

/-! # What an instruction can do to the machine (60_exceptions R800 to R802)

What every instruction that is not a system instruction does, said once for any property that data updates, turns of the
environment, faults and checked stores keep. -/

namespace Sys2Proof.Machine

/-! ## The bits that an update keeps -/

/-- Every bit of `x` inside the mask `m` is set in `y` too. -/
def KeepsBits (m x y : Word) : Prop := ∀ i, m.getLsbD i = true → x.getLsbD i = true → y.getLsbD i = true

theorem KeepsBits.refl (m x : Word) : KeepsBits m x x := fun _ _ h => h

theorem KeepsBits.trans {m x y z : Word} (h : KeepsBits m x y) (h' : KeepsBits m y z) : KeepsBits m x z :=
  fun i hm hx => h' i hm (h i hm hx)

theorem keepsBits_or (m x b : Word) : KeepsBits m x (x ||| b) := fun i _ hx => by
  rw [BitVec.getLsbD_or, hx, Bool.true_or]

/-- Bits outside the mask may be replaced. -/
theorem keepsBits_replace (m x v : Word) : KeepsBits (~~~m) x (x &&& ~~~m ||| v &&& m) := fun i hm hx => by
  rw [BitVec.getLsbD_or, BitVec.getLsbD_and, hm, hx]
  rfl

theorem KeepsBits.and_eq {m x y : Word} (h : KeepsBits m x y) : (x &&& m) &&& y = x &&& m := by
  refine BitVec.eq_of_getLsbD_eq fun i _ => ?_
  simp only [BitVec.getLsbD_and]
  cases hx : x.getLsbD i <;> cases hm : m.getLsbD i <;> simp [h i, hx, hm]

theorem keepsBits_of_and_eq {m x y : Word} (h : x &&& y = x) : KeepsBits m x y := fun i _ hx => by
  rw [← h, BitVec.getLsbD_and, Bool.and_eq_true] at hx
  exact hx.2

/-! ## Updates of the program's own data -/

/-- The update of an instruction that refers to no memory: general registers, IC, CS, new requests, PI bits 3, 4 and 6. -/
structure DataUpdate (s t : State) : Prop where
  frame : t = { s with regs := t.regs, ic := t.ic, sw := t.sw, pi := t.pi, draws := t.draws }
  status : KeepsStatus s t
  pi : KeepsBits 0xE5FF#16 s.pi t.pi

namespace DataUpdate

variable {s u : State}

theorem refl (s : State) : DataUpdate s s := ⟨rfl, rfl, .refl _ _⟩

theorem trans {t : State} (h : DataUpdate s t) (h' : DataUpdate t u) : DataUpdate s u where
  frame := by rw [h'.frame, h.frame]
  status := h'.status.trans h.status
  pi := h.pi.trans h'.pi

theorem setReg (h : DataUpdate s u) (r : Reg) (v : Word) : DataUpdate s (u.setReg r v) :=
  h.trans ⟨rfl, rfl, .refl _ _⟩

theorem setPair (h : DataUpdate s u) (r : Reg) (v : DWord) : DataUpdate s (u.setPair r v) := (h.setReg r _).setReg _ _

theorem setTriple (h : DataUpdate s u) (r : Reg) (v : TWord) : DataUpdate s (u.setTriple r v) :=
  ((h.setReg r _).setReg _ _).setReg _ _

theorem setCS (h : DataUpdate s u) (cs : BitVec 4) : DataUpdate s (setCS cs u) :=
  h.trans ⟨rfl, statusRest_withCS u.sw cs, .refl _ _⟩

theorem jumpTo (h : DataUpdate s u) (a : Word) : DataUpdate s (jumpTo a u) := h.trans ⟨rfl, rfl, .refl _ _⟩

theorem raiseInterrupt (h : DataUpdate s u) (n : BitNo) : DataUpdate s (raiseInterrupt n u) :=
  h.trans ⟨rfl, rfl, keepsBits_or _ _ _⟩

theorem raiseIf (h : DataUpdate s u) (c : Bool) (n : BitNo) : DataUpdate s (raiseIf c n u) := by
  cases c
  · exact h
  · exact h.raiseInterrupt n

theorem drawWord (h : DataUpdate s u) : DataUpdate s (drawWord u).2 := h.trans ⟨rfl, rfl, .refl _ _⟩

theorem freeReg (h : DataUpdate s u) (r : Reg) : DataUpdate s (freeReg r u) := h.drawWord.setReg r _

theorem freeCS (h : DataUpdate s u) : DataUpdate s (freeCS u) := h.drawWord.setCS _

theorem freePI (h : DataUpdate s u) : DataUpdate s (freePI u) :=
  h.drawWord.trans ⟨rfl, rfl, keepsBits_replace arithmeticBits _ _⟩

theorem raise (h : DataUpdate s u) (r : FloatResult) : DataUpdate s (r.raise u) := by
  cases r with
  | ok m e => exact h
  | zero => exact h
  | overflow negative => exact h.raiseInterrupt floatOverflow
  | underflow => exact h.raiseInterrupt floatUnderflow

theorem ite {t : State} (ht : DataUpdate s t) (hu : DataUpdate s u) (c : Prop) [Decidable c] :
    DataUpdate s (if c then t else u) := by
  split
  · exact ht
  · exact hu

end DataUpdate

/-! ## The updates that the instructions are written with -/

section
variable (ra : Reg) (s : State)

theorem dataUpdate_putWord (v : Word) : DataUpdate s (putWord ra v s) := ((DataUpdate.refl s).setReg ra v).setCS _

theorem dataUpdate_putPair (v : DWord) : DataUpdate s (putPair ra v s) := ((DataUpdate.refl s).setPair ra v).setCS _

theorem dataUpdate_putTriple (v : TWord) : DataUpdate s (putTriple ra v s) := ((DataUpdate.refl s).setTriple ra v).setCS _

/-- A word with its CS and a request that depends on a condition. -/
theorem dataUpdate_wordResult (v : Word) (cs : BitVec 4) (c : Bool) (n : BitNo) :
    DataUpdate s (raiseIf c n (setCS cs (s.setReg ra v))) := (((DataUpdate.refl s).setReg ra v).setCS cs).raiseIf c n

theorem dataUpdate_pairResult (v : DWord) (cs : BitVec 4) (c : Bool) (n : BitNo) :
    DataUpdate s (raiseIf c n (setCS cs (s.setPair ra v))) := (((DataUpdate.refl s).setPair ra v).setCS cs).raiseIf c n

theorem dataUpdate_divideTo (x : Int) (d : Word) : DataUpdate s (divideTo ra x d s) :=
  ((((DataUpdate.refl s).setReg ra _).setReg _ _).setCS _).raiseIf _ _

theorem dataUpdate_deliver32 (r : FloatResult) : DataUpdate s (deliver32 ra r s) :=
  (((DataUpdate.refl s).setPair ra _).setCS _).raise r

theorem dataUpdate_deliver48 (r : FloatResult) : DataUpdate s (deliver48 ra r s) :=
  (((DataUpdate.refl s).setTriple ra _).setCS _).raise r

theorem dataUpdate_freeSingle : DataUpdate s (freeSingle ra s) := ((DataUpdate.refl s).freeReg ra).freeCS.freePI

theorem dataUpdate_freePair : DataUpdate s (freePair ra s) :=
  (((DataUpdate.refl s).freeReg ra).freeReg (ra + 1)).freeCS.freePI

theorem dataUpdate_freeTriple : DataUpdate s (freeTriple ra s) :=
  ((((DataUpdate.refl s).freeReg ra).freeReg (ra + 1)).freeReg (ra + 2)).freeCS.freePI

theorem dataUpdate_floatOp32 (f : Unpacked → Unpacked → FloatResult) (d : DWord) : DataUpdate s (floatOp32 f ra d s) :=
  (dataUpdate_deliver32 ra s _).ite (dataUpdate_freePair ra s) _

theorem dataUpdate_floatOp48 (f : Unpacked → Unpacked → FloatResult) (d : TWord) : DataUpdate s (floatOp48 f ra d s) :=
  (dataUpdate_deliver48 ra s _).ite (dataUpdate_freeTriple ra s) _

theorem dataUpdate_floatCompare32 (d : DWord) : DataUpdate s (floatCompare32 ra d s) :=
  ((DataUpdate.refl s).setCS _).ite (DataUpdate.refl s).freeCS _

theorem dataUpdate_floatCompare48 (d : TWord) : DataUpdate s (floatCompare48 ra d s) :=
  ((DataUpdate.refl s).setCS _).ite (DataUpdate.refl s).freeCS _

theorem dataUpdate_movRegisters (rb : Reg) : DataUpdate s (movRegisters ra rb s) :=
  (((DataUpdate.refl s).setReg ra _).setReg rb _).setReg _ _

theorem dataUpdate_setCS (cs : BitVec 4) : DataUpdate s (setCS cs s) := (DataUpdate.refl s).setCS cs

theorem dataUpdate_branch (c : Prop) [Decidable c] (a : Word) : DataUpdate s (if c then jumpTo a s else s) :=
  ((DataUpdate.refl s).jumpTo a).ite (.refl s) c

end


/-! ## A property along the references of an instruction -/

/-- The property `I` of a state, for the outcome `Q` of an instruction: what the parts of an instruction other than the system
instructions keep. -/
structure Preserves (I : State → Prop) (Q : Out → Prop) : Prop where
  next : ∀ {s}, I s → Q (.next s)
  update : ∀ {s t}, I s → DataUpdate s t → I t
  turn : ∀ {s u}, I s → takeTurn s = .ok u → I u
  turnError : ∀ {s o}, I s → takeTurn s = .error o → Q o
  memFault : ∀ {s} (a : Access) (l : Word) (f : RefFault), I s → I (memFault .cpu a l f s)
  write : ∀ {s} (a v : Word), I s → Writable s a → I { s with mem := Memory.writeWord s.mem (physOf s a) v }
  halt : ∀ {s}, I s → I { s with halted := true }

/-- What references give keeps `I`, and how they end the step satisfies `Q`. -/
def Sound (I : State → Prop) (Q : Out → Prop) {α : Type} (state : α → State) : Except Out α → Prop
  | .ok v => I (state v)
  | .error o => Q o

/-- Going on after references. -/
theorem Sound.andThen {I : State → Prop} {Q : Out → Prop} {α : Type} {state : α → State} {r : Except Out α} {k : α → Out}
    (h : Sound I Q state r) (hk : ∀ v, I (state v) → Q (k v)) : Q (andThen r k) := by
  cases r with
  | ok v => exact hk v h
  | error o => exact h

namespace Preserves

variable {I : State → Prop} {Q : Out → Prop} (h : Preserves I Q) {s : State}
include h

theorem takeTurn (hs : I s) : Sound I Q id (takeTurn s) := by
  cases ht : Machine.takeTurn s with
  | ok u => exact h.turn hs ht
  | error o => exact h.turnError hs ht

theorem load (hs : I s) (a : Word) : Sound I Q Prod.snd (load a s) := by
  rcases load_cases a s with ⟨o, ht, hl⟩ | ⟨u, ht, ⟨e, hr, hl⟩ | ⟨w, _, hl⟩⟩ <;> rw [hl]
  · exact h.turnError hs ht
  · rcases readNow_cases (operAccess s) a u with ⟨_, hr'⟩ | ⟨f, _, hr'⟩ <;> rw [hr'] at hr <;> cases hr
    exact h.next (h.memFault _ _ _ (h.turn hs ht))
  · exact h.turn hs ht

theorem store (hs : I s) (a v : Word) : Sound I Q id (store a v s) := by
  rcases store_cases a v s with ⟨o, ht, hst⟩ | ⟨u, ht, ⟨hw, hst⟩ | ⟨_, hst⟩ | ⟨f, _, _, hst⟩⟩ <;> rw [hst]
  · exact h.turnError hs ht
  · exact h.write a v (h.turn hs ht) hw
  · exact h.memFault _ _ _ (h.turn hs ht)
  · exact h.next (h.memFault _ _ _ (h.turn hs ht))

theorem storeNow (hs : I s) (a v : Word) : Sound I Q id (storeNow a v s) := by
  unfold Machine.storeNow
  rcases writeNow_cases (operAccess s) a v s with ⟨hw, hst⟩ | ⟨_, hst⟩ | ⟨f, _, _, hst⟩ <;> rw [hst]
  · exact h.write a v hs hw
  · exact h.memFault _ _ _ hs
  · exact h.next (h.memFault _ _ _ hs)

theorem load2 (hs : I s) (a : Word) : Sound I Q Prod.snd (load2 a s) := by
  have h1 := h.load hs a
  unfold Machine.load2
  cases hr1 : Machine.load a s with
  | error o => rwa [hr1] at h1
  | ok r1 =>
    rw [hr1] at h1
    have h2 := h.load h1 (a + 1)
    dsimp only
    cases hr2 : Machine.load (a + 1) r1.2 with
    | error o => rwa [hr2] at h2
    | ok r2 => rwa [hr2] at h2

theorem load3 (hs : I s) (a : Word) : Sound I Q Prod.snd (load3 a s) := by
  have h1 := h.load2 hs a
  unfold Machine.load3
  cases hr1 : Machine.load2 a s with
  | error o => rwa [hr1] at h1
  | ok r1 =>
    rw [hr1] at h1
    have h2 := h.load h1 (a + 2)
    dsimp only
    cases hr2 : Machine.load (a + 2) r1.2 with
    | error o => rwa [hr2] at h2
    | ok r2 => rwa [hr2] at h2

theorem storeWords : ∀ (ws : List Word) (a : Word) {s : State}, I s → Sound I Q id (storeWords a ws s)
  | [], _, _, hs => hs
  | v :: ws, a, s, hs => by
    have h1 := h.store hs a v
    unfold Machine.storeWords
    cases hr : Machine.store a v s with
    | error o => rwa [hr] at h1
    | ok t =>
      rw [hr] at h1
      exact storeWords ws (a + 1) h1

theorem loadRegs : ∀ (k : Nat) (r : Reg) (a : Word) {s : State}, I s → Sound I Q id (loadRegs k r a s)
  | 0, _, _, _, hs => hs
  | k + 1, r, a, s, hs => by
    have h1 := h.load hs a
    unfold Machine.loadRegs
    cases hr : Machine.load a s with
    | error o => rwa [hr] at h1
    | ok w =>
      rw [hr] at h1
      exact loadRegs k (r + 1) (a + 1) (h.update h1 ((DataUpdate.refl _).setReg r _))

theorem popRegs : ∀ (k : Nat) (r : Reg) {s : State}, I s → Sound I Q id (popRegs k r s)
  | 0, _, _, hs => hs
  | k + 1, r, s, hs => by
    have h1 := h.load hs (s.reg 15)
    unfold Machine.popRegs
    split
    · exact popRegs k (r + 1) (h.update hs ((DataUpdate.refl _).setReg 15 _))
    · cases hr : Machine.load (s.reg 15) s with
      | error o => rwa [hr] at h1
      | ok w =>
        rw [hr] at h1
        exact popRegs k (r + 1) (h.update h1 (((DataUpdate.refl _).setReg r _).setReg 15 _))

theorem pushRegs : ∀ (k : Nat) (r : Reg) {s : State}, I s → Sound I Q id (pushRegs k r s)
  | 0, _, _, hs => hs
  | k + 1, r, s, hs => by
    have h1 := h.store (h.update hs ((DataUpdate.refl s).setReg 15 (s.reg 15 - 1))) ((stackDown s).reg 15)
      ((stackDown s).reg r)
    cases hr : Machine.store ((stackDown s).reg 15) ((stackDown s).reg r) (stackDown s) with
    | error o =>
      rw [pushRegs_of_store_error hr]
      exact (congrArg (Sound I Q id) hr).mp h1
    | ok t =>
      rw [pushRegs_of_store hr]
      exact pushRegs k (r - 1) ((congrArg (Sound I Q id) hr).mp h1)

/-! ## The shapes of the instructions -/

/-- An instruction that refers to no memory. -/
theorem next_of_update (hs : I s) {t : State} (ht : DataUpdate s t) : Q (.next t) := h.next (h.update hs ht)

theorem withWord (hs : I s) (a : Word) {k : Word → State → Out} (hk : ∀ d {u}, I u → Q (k d u)) : Q (withWord a s k) :=
  (h.load hs a).andThen fun r hr => hk r.1 hr

theorem withDouble (hs : I s) (a : Word) {k : DWord → State → Out} (hk : ∀ d {u}, I u → Q (k d u)) :
    Q (withDouble a s k) := (h.load2 hs a).andThen fun r hr => hk r.1 hr

theorem withTriple (hs : I s) (a : Word) {k : TWord → State → Out} (hk : ∀ d {u}, I u → Q (k d u)) :
    Q (withTriple a s k) := (h.load3 hs a).andThen fun r hr => hk r.1 hr

theorem withPointer (hs : I s) (rx : Reg) (addr : Word) {k : Word → State → Out} (hk : ∀ a {u}, I u → Q (k a u)) :
    Q (withPointer rx addr s k) := (h.load hs _).andThen fun r hr => hk r.1 hr

theorem storeAll (hs : I s) (a : Word) (ws : List Word) : Q (storeAll a ws s) :=
  (h.storeWords ws a hs).andThen fun _ => h.next

theorem updateWord (hs : I s) (a : Word) (f : Word → Word) : Q (updateWord a f s) :=
  h.withWord hs a fun d _ hu => h.storeAll hu a [f d]

theorem storeUpperFrom (hs : I s) (ra : Reg) (a : Word) : Q (storeUpperFrom ra a s) :=
  h.updateWord hs a fun t => lowerByte (s.reg ra) ++ lowerByte t

theorem storeLowerFrom (hs : I s) (ra : Reg) (a : Word) : Q (storeLowerFrom ra a s) :=
  h.updateWord hs a fun t => upperByte t ++ lowerByte (s.reg ra)

theorem testWord (hs : I s) (a : Word) (n : BitNo) : Q (testWord a n s) :=
  h.withWord hs a fun _ _ hu => h.next_of_update hu (dataUpdate_setCS _ _)

theorem loadWordTo (hs : I s) (ra : Reg) (a : Word) : Q (loadWordTo ra a s) :=
  h.withWord hs a fun _ _ hu => h.next_of_update hu (dataUpdate_putWord _ _ _)

theorem loadPairTo (hs : I s) (ra : Reg) (a : Word) : Q (loadPairTo ra a s) :=
  h.withDouble hs a fun _ _ hu => h.next_of_update hu (dataUpdate_putPair _ _ _)

theorem loadUpperTo (hs : I s) (ra : Reg) (a : Word) : Q (loadUpperTo ra a s) :=
  h.withWord hs a fun _ _ hu => h.next_of_update hu (dataUpdate_putWord _ _ _)

theorem loadLowerTo (hs : I s) (ra : Reg) (a : Word) : Q (loadLowerTo ra a s) :=
  h.withWord hs a fun _ _ hu => h.next_of_update hu (dataUpdate_putWord _ _ _)

theorem storeSum (hs : I s) (a r : Word) (carry ovf : Bool) : Q (storeSum a r carry ovf s) :=
  (h.store hs a r).andThen fun t ht =>
    h.next_of_update ht (((DataUpdate.refl t).setCS (csArith carry r)).raiseIf ovf fixedOverflow)

theorem shiftWordBy (hs : I s) (left right : Word → Nat → Word) (ovf : Word → Int → Bool) (ra rb : Reg) :
    Q (shiftWordBy left right ovf ra rb s) := by
  unfold Machine.shiftWordBy
  dsimp only
  split
  · exact h.next_of_update hs ((DataUpdate.refl s).raiseInterrupt _)
  · exact h.next_of_update hs (dataUpdate_wordResult ra s _ _ _ _)

theorem shiftPairBy (hs : I s) (left right : DWord → Nat → DWord) (ovf : DWord → Int → Bool) (ra rb : Reg) :
    Q (shiftPairBy left right ovf ra rb s) := by
  unfold Machine.shiftPairBy
  dsimp only
  split
  · exact h.next_of_update hs ((DataUpdate.refl s).raiseInterrupt _)
  · exact h.next_of_update hs (dataUpdate_pairResult ra s _ _ _ _)

theorem execTsb (hs : I s) (n : BitNo) (rx : Reg) (addr : Word) : Q (execTsb n rx addr s) :=
  h.withWord hs _ fun d u hu => by
    have hcs : I (setCS (csBit d n) u) := h.update hu (dataUpdate_setCS u _)
    dsimp only
    split
    · exact h.next hcs
    · exact (h.storeNow hcs _ _).andThen fun _ => h.next

theorem execSjs (hs : I s) (ra rx : Reg) (addr : Word) : Q (execSjs ra rx addr s) :=
  (h.takeTurn hs).andThen fun u hu =>
    (h.storeNow (h.update hu ((DataUpdate.refl u).setReg ra _)) _ _).andThen fun t ht =>
      h.next_of_update ht ((DataUpdate.refl t).jumpTo _)

theorem execMov (hs : I s) (ra rb : Reg) : Q (execMov ra rb s) := by
  unfold Machine.execMov
  split
  · exact h.next hs
  · refine h.withWord hs _ fun d u hu => (h.store hu _ d).andThen fun t ht => h.next_of_update ht ?_
    exact (dataUpdate_movRegisters ra t rb).ite ((dataUpdate_movRegisters ra t rb).jumpTo _) _

theorem execFix (hs : I s) (ra rb : Reg) : Q (execFix ra rb s) := by
  unfold Machine.execFix
  dsimp only
  split
  · split
    · exact h.next_of_update hs ((DataUpdate.refl s).raiseInterrupt _)
    · exact h.next_of_update hs (dataUpdate_putWord ra s _)
  · exact h.next_of_update hs (dataUpdate_freeSingle ra s)

theorem execEfix (hs : I s) (ra rb : Reg) : Q (execEfix ra rb s) := by
  unfold Machine.execEfix
  dsimp only
  split
  · split
    · exact h.next_of_update hs ((DataUpdate.refl s).raiseInterrupt _)
    · exact h.next_of_update hs (dataUpdate_putPair ra s _)
  · exact h.next_of_update hs (dataUpdate_freePair ra s)

theorem execSoj (hs : I s) (ra rx : Reg) (addr : Word) : Q (execSoj ra rx addr s) :=
  h.next_of_update hs ((dataUpdate_putWord ra s _).ite ((dataUpdate_putWord ra s _).jumpTo _) _)

theorem execUrs (hs : I s) (ra : Reg) : Q (execUrs ra s) :=
  h.withWord hs _ fun a u hu => h.next_of_update hu (((DataUpdate.refl u).jumpTo a).setReg ra _)

theorem execBpt (hs : I s) : Q (execBpt s) := by
  unfold Machine.execBpt
  split
  · exact h.next (h.halt hs)
  · exact h.next hs

theorem execCbl (hs : I s) (ra rx : Reg) (addr : Word) : Q (execCbl ra rx addr s) :=
  h.withWord hs _ fun _ _ hu => h.withWord hu _ fun _ _ hv => h.next_of_update hv (dataUpdate_setCS _ _)

end Preserves

/-! ## Every instruction that is not a system instruction -/

/-- The instructions that reach beyond the program: the privileged ones, the executive call, the user defined functions. -/
inductive SystemInstr : Instr → Prop
  | xio (ra rx : Reg) (addr : Word) : SystemInstr (.xio ra rx addr)
  | vio (ra rx : Reg) (addr : Word) : SystemInstr (.vio ra rx addr)
  | lst (rx : Reg) (addr : Word) : SystemInstr (.lst rx addr)
  | lsti (rx : Reg) (addr : Word) : SystemInstr (.lsti rx addr)
  | bex (n : Fin 16) : SystemInstr (.bex n)
  | userFunction (opex : Byte) : SystemInstr (.bif opex)

/-- What data updates, turns, faults and checked stores keep, every instruction keeps that is not a system instruction. -/
theorem Preserves.exec {I : State → Prop} {Q : Out → Prop} (h : Preserves I Q) {s : State} (hs : I s) (i : Instr)
    (hi : SystemInstr i → Q (exec i s)) : Q (exec i s) := by
  cases i
  case xio ra rx addr => exact hi (.xio ra rx addr)
  case vio ra rx addr => exact hi (.vio ra rx addr)
  case lst rx addr => exact hi (.lst rx addr)
  case lsti rx addr => exact hi (.lsti rx addr)
  case bex n => exact hi (.bex n)
  all_goals
    delta Machine.exec
    dsimp only
  case sbr | rbr | svbr | rvbr => exact h.next_of_update hs ((DataUpdate.refl s).setReg _ _)
  case tbr | tvbr => exact h.next_of_update hs (dataUpdate_setCS s _)
  case sb | rb | srm =>
    exact h.updateWord hs _ _
  case sbi | rbi => exact h.withPointer hs _ _ fun a _ hu => h.updateWord hu a _
  case stub => exact h.storeUpperFrom hs _ _
  case stlb => exact h.storeLowerFrom hs _ _
  case subi => exact h.withPointer hs _ _ fun a _ hu => h.storeUpperFrom hu _ a
  case slbi => exact h.withPointer hs _ _ fun a _ hu => h.storeLowerFrom hu _ a
  case tb => exact h.testWord hs _ _
  case tbi => exact h.withPointer hs _ _ fun a _ hu => h.testWord hu a _
  case tsb => exact h.execTsb hs _ _ _
  case sll | srl | sra | slc => exact h.next_of_update hs (dataUpdate_putWord _ s _)
  case dsll | dsrl | dsra | dslc => exact h.next_of_update hs (dataUpdate_putPair _ s _)
  case slr | sar | scr => exact h.shiftWordBy hs _ _ _ _ _
  case dslr | dsar | dscr => exact h.shiftPairBy hs _ _ _ _ _
  case jc | bez | blt | ble | bgt | bnz | bge => exact h.next_of_update hs (dataUpdate_branch s _ _)
  case jci => exact h.withPointer hs _ _ fun a u hu => h.next_of_update hu (dataUpdate_branch u _ a)
  case br => exact h.next_of_update hs ((DataUpdate.refl s).jumpTo _)
  case js => exact h.next_of_update hs (((DataUpdate.refl s).setReg _ _).jumpTo _)
  case soj => exact h.execSoj hs _ _ _
  case sjs => exact h.execSjs hs _ _ _
  case urs => exact h.execUrs hs _
  case l | lb | lbx => exact h.loadWordTo hs _ _
  case lr | lisp | lisn | lim => exact h.next_of_update hs (dataUpdate_putWord _ s _)
  case li => exact h.withPointer hs _ _ fun a _ hu => h.loadWordTo hu _ a
  case dl | dlb | dlbx => exact h.loadPairTo hs _ _
  case dlr => exact h.next_of_update hs (dataUpdate_putPair _ s _)
  case dli => exact h.withPointer hs _ _ fun a _ hu => h.loadPairTo hu _ a
  case lm => exact (h.loadRegs _ _ _ hs).andThen fun _ => h.next
  case efl => exact h.withTriple hs _ fun d u hu => h.next_of_update hu (dataUpdate_putTriple _ u d)
  case lub => exact h.loadUpperTo hs _ _
  case llb => exact h.loadLowerTo hs _ _
  case lubi => exact h.withPointer hs _ _ fun a _ hu => h.loadUpperTo hu _ a
  case llbi => exact h.withPointer hs _ _ fun a _ hu => h.loadLowerTo hu _ a
  case popm => exact (h.popRegs _ _ hs).andThen fun _ => h.next
  case st | stc | stb | stbx | dst | dstb | dstx | stm | efst => exact h.storeAll hs _ _
  case sti | stci | dsti => exact h.withPointer hs _ _ fun a _ hu => h.storeAll hu a _
  case mov => exact h.execMov hs _ _
  case pshm => exact (h.pushRegs _ _ hs).andThen fun _ => h.next
  case a | ab | abx | s | sbb | sbbx | ms =>
    exact h.withWord hs _ fun d u hu => h.next_of_update hu (dataUpdate_wordResult _ u _ _ _ _)
  case ar | aisp | aim | abs | sr | sisp | sim | neg | msr | misp | misn | msim =>
    exact h.next_of_update hs (dataUpdate_wordResult _ s _ _ _ _)
  case incm | decm => exact h.withWord hs _ fun _ _ hu => h.storeSum hu _ _ _ _
  case da | ds | dm | dd => exact h.withDouble hs _ fun _ u hu => h.next_of_update hu (dataUpdate_pairResult _ u _ _ _ _)
  case dar | dabs | dsr | dneg | dmr | ddr => exact h.next_of_update hs (dataUpdate_pairResult _ s _ _ _ _)
  case m | mb | mbx => exact h.withWord hs _ fun _ u hu => h.next_of_update hu (dataUpdate_putPair _ u _)
  case mr | mim => exact h.next_of_update hs (dataUpdate_putPair _ s _)
  case dv | d | db | dbx => exact h.withWord hs _ fun _ u hu => h.next_of_update hu (dataUpdate_divideTo _ u _ _)
  case dvr | disp | disn | dvim | dr | dim => exact h.next_of_update hs (dataUpdate_divideTo _ s _ _)
  case far | fsr | fmr | fdr => exact h.next_of_update hs (dataUpdate_floatOp32 _ s _ _)
  case fa | fab | fabx | fs | fsb | fsbx | fm | fmb | fmbx | fd | fdb | fdbx =>
    exact h.withDouble hs _ fun d u hu => h.next_of_update hu (dataUpdate_floatOp32 _ u _ d)
  case efar | efsr | efmr | efdr => exact h.next_of_update hs (dataUpdate_floatOp48 _ s _ _)
  case efa | efs | efm | efd =>
    exact h.withTriple hs _ fun d u hu => h.next_of_update hu (dataUpdate_floatOp48 _ u _ d)
  case fabs | fneg =>
    exact h.next_of_update hs ((dataUpdate_deliver32 _ s _).ite (dataUpdate_freePair _ s) _)
  case fix => exact h.execFix hs _ _
  case efix => exact h.execEfix hs _ _
  case flt => exact h.next_of_update hs (dataUpdate_deliver32 _ s _)
  case eflt => exact h.next_of_update hs (dataUpdate_deliver48 _ s _)
  case fcr => exact h.next_of_update hs (dataUpdate_floatCompare32 _ s _)
  case fc | fcb | fcbx => exact h.withDouble hs _ fun d u hu => h.next_of_update hu (dataUpdate_floatCompare32 _ u d)
  case efcr => exact h.next_of_update hs (dataUpdate_floatCompare48 _ s _)
  case efc => exact h.withTriple hs _ fun d u hu => h.next_of_update hu (dataUpdate_floatCompare48 _ u d)
  case or | and | xor | n | orb | orbx | andb | andx =>
    exact h.withWord hs _ fun _ u hu => h.next_of_update hu (dataUpdate_putWord _ u _)
  case orr | andr | xorr | nr | orim | andm | xorm | nim | xbr => exact h.next_of_update hs (dataUpdate_putWord _ s _)
  case xwr => exact h.next_of_update hs ((((DataUpdate.refl s).setReg _ _).setReg _ _).setCS _)
  case c | cb | cbx => exact h.withWord hs _ fun _ u hu => h.next_of_update hu (dataUpdate_setCS u _)
  case cr | cisp | cisn | cim | dcr => exact h.next_of_update hs (dataUpdate_setCS s _)
  case dc => exact h.withDouble hs _ fun _ u hu => h.next_of_update hu (dataUpdate_setCS u _)
  case cbl => exact h.execCbl hs _ _ _
  case nop => exact h.next hs
  case bpt => exact h.execBpt hs
  exact hi (.userFunction _)


/-! ## What a program without privilege can reach (60_exceptions R800 to R802) -/

/-- The confinement of a program: from `s` on the environment does nothing, and only the program's own data, its faults and
memory that its operand writes reach have changed. -/
structure Confined (s t : State) : Prop where
  frame : t = { s with
    regs := t.regs, ic := t.ic, sw := t.sw, ft := t.ft, pi := t.pi, mfsr := t.mfsr, halted := t.halted, mem := t.mem,
    draws := t.draws, env := t.env }
  status : KeepsStatus s t
  ft : KeepsBits 0xFFFF#16 s.ft t.ft
  pi : KeepsBits 0xE5FF#16 s.pi t.pi
  wf : Memory.wf t.mem = true
  quiet : ∀ es ∈ t.env, es = []
  memory : ∀ b, Memory.readByte t.mem b ≠ Memory.readByte s.mem b →
    ∃ a, Writable s a ∧ (b = 2 * (physOf s a).toNat ∨ b = 2 * (physOf s a).toNat + 1)

namespace Confined

variable {s t : State}

theorem refl (hw : Memory.wf s.mem = true) (hq : ∀ es ∈ s.env, es = []) : Confined s s where
  frame := rfl
  status := rfl
  ft := .refl _ _
  pi := .refl _ _
  wf := hw
  quiet := hq
  memory := fun _ h => absurd rfl h

/-- Group and key of the operand references stay. -/
theorem operAccess_eq (h : Confined s t) : operAccess t = operAccess s := by
  rw [operAccess, operAccess, asOf_eq_of_rest h.status, psOf_eq_of_rest h.status]

theorem writable_iff (h : Confined s t) (a : Word) : Writable t a ↔ Writable s a := by
  have hf : refFault t .cpu (operAccess s) true a = refFault s .cpu (operAccess s) true a := by
    rw [h.frame]
    exact refFault_congr rfl rfl rfl rfl rfl _ _ _ _
  rw [Writable, Writable, h.operAccess_eq, hf]

theorem physOf_eq (h : Confined s t) (a : Word) : physOf t a = physOf s a := by
  rw [physOf, physOf, h.operAccess_eq, h.frame]
  exact translate_congr rfl rfl _ _

theorem update (h : Confined s t) {u : State} (hu : DataUpdate t u) : Confined s u where
  frame := by rw [hu.frame, h.frame]
  status := hu.status.trans h.status
  ft := by rw [hu.frame]; exact h.ft
  pi := h.pi.trans hu.pi
  wf := by rw [hu.frame]; exact h.wf
  quiet := by rw [hu.frame]; exact h.quiet
  memory := by rw [hu.frame]; exact h.memory

theorem raiseFault (h : Confined s t) (k : BitNo) : Confined s (raiseFault k t) where
  frame := by rw [raiseFault_frame, h.frame]
  status := by rw [raiseFault_frame]; exact h.status
  ft := h.ft.trans (keepsBits_of_and_eq (raiseFault_ft_keeps k t))
  pi := h.pi.trans (keepsBits_of_and_eq (raiseFault_pi_keeps k t))
  wf := by rw [raiseFault_frame]; exact h.wf
  quiet := by rw [raiseFault_frame]; exact h.quiet
  memory := by rw [raiseFault_frame]; exact h.memory

theorem memFault (h : Confined s t) (a : Access) (l : Word) (f : RefFault) : Confined s (memFault .cpu a l f t) where
  frame := by rw [memFault_frame, h.frame]
  status := by rw [memFault_frame]; exact h.status
  ft := by rw [memFault_frame]; exact (h.raiseFault _).ft
  pi := by rw [memFault_frame]; exact (h.raiseFault _).pi
  wf := by rw [memFault_frame]; exact h.wf
  quiet := by rw [memFault_frame]; exact h.quiet
  memory := by rw [memFault_frame]; exact h.memory

/-- A turn of the environment, which does nothing. -/
theorem takeTurn (h : Confined s t) : ∃ u, takeTurn t = .ok u ∧ Confined s u := by
  have hq : QuietFor 1 t := fun k _ => by
    cases he : t.env[k]? with
    | none => rfl
    | some es => exact h.quiet es (List.mem_of_getElem? he)
  refine ⟨_, takeTurn_of_quiet hq, ?_⟩
  exact { h with
    frame := by rw [h.frame]; rfl
    quiet := fun es hes => h.quiet es (List.mem_of_mem_drop hes) }

/-- A store that passes its checks. -/
theorem write (h : Confined s t) (a v : Word) (ha : Writable t a) :
    Confined s { t with mem := Memory.writeWord t.mem (physOf t a) v } where
  frame := by rw [h.frame]
  status := h.status
  ft := h.ft
  pi := h.pi
  wf := Memory.wf_writeWord _ v h.wf
  quiet := h.quiet
  memory := fun b hb => by
    by_cases hat : b = 2 * (physOf t a).toNat ∨ b = 2 * (physOf t a).toNat + 1
    · exact ⟨a, (h.writable_iff a).1 ha, h.physOf_eq a ▸ hat⟩
    · obtain ⟨h0, h1⟩ := not_or.1 hat
      refine h.memory b fun he => hb ?_
      rw [Memory.readByte_writeWord h.wf, if_neg h1, if_neg h0, he]

end Confined

/-- What a program can reach is kept by all that the instructions are made of. -/
theorem preserves_confined (s : State) : Preserves (Confined s) fun o => ∀ t, o = .next t → Confined s t where
  next := fun h _ ht => Host.Outcome.next.inj ht ▸ h
  update := fun h hu => h.update hu
  turn := fun h ht => by
    obtain ⟨u, hu, hc⟩ := h.takeTurn
    rw [hu] at ht
    exact Except.ok.inj ht ▸ hc
  turnError := fun h ht => by
    obtain ⟨u, hu, _⟩ := h.takeTurn
    rw [hu] at ht
    cases ht
  memFault := fun a l f h => h.memFault a l f
  write := fun a v h => h.write a v
  halt := fun h => { h with frame := by rw [h.frame] }

/-- Settles O20: the privilege check is the first step of each of the four instructions. -/
theorem privilegedInstructionsTrap : Obligations.PrivilegedInstructionsTrap := by
  unfold Obligations.PrivilegedInstructionsTrap
  exact fun s ra rx addr hps =>
    ⟨privileged_of_ne (.next (performIo ra (daLong rx addr s) s)) hps, privileged_of_ne _ hps,
      privileged_of_ne (returnFrom (daLong rx addr s) s) hps, privileged_of_ne (withPointer rx addr s returnFrom) hps⟩

/-- A function that the platform does not define is an illegal instruction. -/
theorem exec_bif_of_undefined {s : State} {x : Byte} (h : s.cfg.bifSet.lookup x = none) :
    exec (.bif x) s = .next (raiseFault 9 s) := by
  change execBif x s = _
  simp [execBif, h]

/-- Without privilege the system instructions other than BEX and an implemented function do no more than raise a fault. -/
theorem exec_system_of_unprivileged {i : Instr} {s : State} (hi : SystemInstr i) (hps : psOf s.sw ≠ 0x0#4)
    (hbex : ∀ n, i ≠ .bex n) (hbif : ∀ x, i = .bif x → s.cfg.bifSet.lookup x = none) :
    ∃ k, exec i s = .next (raiseFault k s) := by
  have htrap := fun ra rx addr => privilegedInstructionsTrap s ra rx addr hps
  cases hi with
  | xio ra rx addr => exact ⟨10, (htrap ra rx addr).1⟩
  | vio ra rx addr => exact ⟨10, (htrap ra rx addr).2.1⟩
  | lst rx addr => exact ⟨10, (htrap 0 rx addr).2.2.1⟩
  | lsti rx addr => exact ⟨10, (htrap 0 rx addr).2.2.2⟩
  | bex n => exact absurd rfl (hbex n)
  | userFunction x => exact ⟨9, exec_bif_of_undefined (hbif x rfl)⟩

/-- Settles O11: the confinement is kept by every part of every instruction, and the system instructions trap. -/
theorem unprivilegedInstructionIsConfined : Obligations.UnprivilegedInstructionIsConfined := by
  unfold Obligations.UnprivilegedInstructionIsConfined
  intro i s t hps hbex hbif hq hw hexec
  have hs : Confined s s := .refl hw hq
  have hc : Confined s t := by
    refine (preserves_confined s).exec hs i (fun hi u hu => ?_) t hexec
    obtain ⟨k, hk⟩ := exec_system_of_unprivileged hi hps hbex hbif
    exact Host.Outcome.next.inj (hk.symm.trans hu) ▸ hs.raiseFault k
  have hft : s.ft &&& 0xFFFF#16 = s.ft := BitVec.and_allOnes
  exact ⟨hc.frame, hc.status, hft ▸ hc.ft.and_eq, hc.pi.and_eq, hc.memory⟩

end Sys2Proof.Machine

/-! # The outcome of a step (60_exceptions R760, R775)

Only the loss of power ends the run: the schedule is followed through every reference of an instruction. -/

namespace Sys2Proof.Machine

/-! ## The schedule is changed by turns alone -/

@[simp] theorem raiseFault_env (k : BitNo) (s : State) : (raiseFault k s).env = s.env := by rw [raiseFault_frame]

@[simp] theorem memFault_env (g : Agent) (a : Access) (l : Word) (f : RefFault) (s : State) :
    (memFault g a l f s).env = s.env := by rw [memFault_frame]

@[simp] theorem raiseIf_env (c : Bool) (n : BitNo) (s : State) : (raiseIf c n s).env = s.env := by rw [raiseIf_eq]

@[simp] theorem captureMfsr_env (lpa : BitVec 4) (k : RefKind) (g : BitVec 4) (s : State) :
    (captureMfsr lpa k g s).env = s.env := by
  unfold captureMfsr
  split <;> rfl

@[simp] theorem loadSW_env (v : Word) (s : State) : (loadSW v s).env = s.env := by
  rw [loadSW_eq]
  split
  · rfl
  · rw [raiseFault_env]

@[simp] theorem delayedEnable_env (s : State) : (delayedEnable s).env = s.env := by
  unfold delayedEnable
  split <;> rfl

@[simp] theorem freezeIoic_env (n : BitNo) (s : State) : (freezeIoic n s).env = s.env := by
  unfold freezeIoic
  split
  · rfl
  · split <;> rfl

theorem deviceAccess_env (d : DeviceAddress) (op : DeviceOp) (s : State) : (deviceAccess d op s).env = s.env := by
  have htransfer : ∀ p, (deviceTransfer p op s).env = s.env := fun p => by cases op <;> rfl
  unfold deviceAccess
  split
  · cases d with
    | mapped g k l =>
      dsimp only
      split
      · exact memFault_env _ _ _ _ s
      · exact htransfer _
    | unmapped p =>
      dsimp only
      split
      · rw [captureMfsr_env, raiseFault_env]
      · exact htransfer _
  · rfl

/-- No event changes the schedule. -/
theorem applyEvent_env {e : Event} {s t : State} (h : applyEvent e s = some t) : t.env = s.env := by
  cases e <;> simp only [applyEvent, Option.some.injEq, reduceCtorEq] at h <;> subst h
  case tickA =>
    unfold tickTimerA
    split <;> simp
  case tickB =>
    unfold tickTimerB
    split <;> simp
  case request n => exact raiseIf_env _ n s
  case ioRequest l c =>
    unfold channelRequest
    split <;> split <;> rfl
  case device d op => exact deviceAccess_env d op s
  case platformFault k =>
    unfold platformFault
    split <;> simp
  all_goals rfl

@[simp] theorem enableInterrupts_env (s : State) : (enableInterrupts s).env = s.env := by
  unfold enableInterrupts
  split <;> rfl

@[simp] theorem resetPending_env (w : Word) (s : State) : (resetPending w s).env = s.env := by
  unfold resetPending
  dsimp only
  split <;> rfl

@[simp] theorem consoleOutput_env (w : Word) (s : State) : (consoleOutput w s).env = s.env := by
  unfold consoleOutput
  split <;> rfl

@[simp] theorem consoleClear_env (s : State) : (consoleClear s).env = s.env := by
  unfold consoleClear
  split <;> rfl

theorem outputEffect_env (o : OutCommand) (w : Word) (s : State) : (outputEffect o w s).env = s.env := by
  cases o
  case enbl => exact enableInterrupts_env s
  case rpi => exact resetPending_env w s
  case wsw => exact loadSW_env w s
  case co => exact consoleOutput_env w s
  case clc => exact consoleClear_env s
  all_goals rfl

theorem inputEffect_env (i : InCommand) (s : State) : (inputEffect i s).2.env = s.env := by rw [inputEffect_frame]

theorem performIo_env (ra : Reg) (c : Word) (s : State) : (performIo ra c s).env = s.env := by
  unfold performIo
  split
  · exact raiseFault_env 5 s
  · exact outputEffect_env _ _ s
  · exact inputEffect_env _ s

/-! ## The loss of power along the references -/

/-- The loss of power stands in the schedule. -/
def PowerLossDue (s : State) : Prop := ∃ es ∈ s.env, Event.powerLoss ∈ es

/-- Between `s` and `t` no loss of power has entered the schedule. -/
def PowerKept (s t : State) : Prop := PowerLossDue t → PowerLossDue s

/-- The outcome is a next state, or the loss of power that stands in the schedule of `s`. -/
def PowerOutcome (s : State) : Out → Prop
  | .next t => PowerKept s t
  | .fault f => f = .powerOff ∧ PowerLossDue s
  | .refused _ => False

theorem PowerKept.congr {s t u : State} (h : PowerKept s t) (he : u.env = t.env) : PowerKept s u := fun hd =>
  h (by unfold PowerLossDue at hd ⊢; rwa [← he])

section
variable {s : State}

theorem applyEvents_sound : ∀ (es : List Event) {t : State}, (Event.powerLoss ∈ es → PowerLossDue s) → PowerKept s t →
    Sound (PowerKept s) (PowerOutcome s) id (applyEvents es t)
  | [], _, _, ht => ht
  | e :: rest, t, hes, ht => by
    have hrest : Event.powerLoss ∈ rest → PowerLossDue s := fun h => hes (List.mem_cons_of_mem e h)
    unfold applyEvents
    cases he : applyEvent e t with
    | none =>
      have hloss : e = .powerLoss := by
        cases e <;> simp only [applyEvent, reduceCtorEq] at he
        rfl
      exact ⟨rfl, hes (hloss ▸ List.mem_cons_self)⟩
    | some u =>
      have hu : PowerKept s u := ht.congr (applyEvent_env he)
      dsimp only
      split
      · rintro ⟨es, hmem, hloss⟩
        rcases List.mem_cons.1 hmem with rfl | hmem
        · cases hloss
        rcases List.mem_cons.1 hmem with rfl | hmem
        · exact hrest hloss
        · exact hu ⟨es, hmem, hloss⟩
      · exact applyEvents_sound rest hrest hu

theorem takeTurn_sound {t : State} (ht : PowerKept s t) : Sound (PowerKept s) (PowerOutcome s) id (takeTurn t) := by
  unfold takeTurn
  split
  · exact ht
  · next now later he =>
    refine applyEvents_sound now (fun h => ht ⟨now, he ▸ List.mem_cons_self, h⟩) fun ⟨es, hmem, hloss⟩ => ?_
    exact ht ⟨es, he ▸ List.mem_cons_of_mem now hmem, hloss⟩

theorem preserves_powerKept : Preserves (PowerKept s) (PowerOutcome s) where
  next := fun h => h
  update := fun h hu => h.congr (by rw [hu.frame])
  turn := fun h ht => (congrArg (Sound (PowerKept s) (PowerOutcome s) id) ht).mp (takeTurn_sound h)
  turnError := fun h ht => (congrArg (Sound (PowerKept s) (PowerOutcome s) id) ht).mp (takeTurn_sound h)
  memFault := fun _ _ _ h => h.congr (memFault_env _ _ _ _ _)
  write := fun _ _ h _ => h.congr rfl
  halt := fun h => h.congr rfl

/-! ## The system instructions -/

theorem returnFrom_sound {t : State} (ht : PowerKept s t) (a : Word) : PowerOutcome s (returnFrom a t) :=
  preserves_powerKept.withWord ht a fun _ _ h1 => preserves_powerKept.withWord h1 _ fun _ _ h2 =>
    preserves_powerKept.withWord h2 _ fun _ _ h3 => h3.congr (loadSW_env _ _)

theorem privileged_sound {t : State} (ht : PowerKept s t) {k : Out} (hk : PowerOutcome s k) :
    PowerOutcome s (privileged t k) := by
  unfold privileged
  split
  · exact hk
  · exact ht.congr (raiseFault_env 10 t)

theorem vioInput_sound {t : State} (ht : PowerKept s t) (i : InCommand) (a : Word) :
    Sound (PowerKept s) (PowerOutcome s) id (vioInput i a t) := by
  have h1 := takeTurn_sound ht
  unfold vioInput
  cases hr : takeTurn t with
  | error o => rwa [hr] at h1
  | ok u =>
    rw [hr] at h1
    exact preserves_powerKept.store (PowerKept.congr h1 (inputEffect_env i u)) a _

theorem vioChain_sound (c0 vs r : Word) : ∀ (l : List BitNo) (a : Word) {t : State}, PowerKept s t →
    Sound (PowerKept s) (PowerOutcome s) id (vioChain c0 vs r l a t)
  | [], _, _, ht => ht
  | n :: l, a, t, ht => by
    unfold vioChain
    split
    · split
      · exact ht.congr (raiseFault_env 5 t)
      · next o _ =>
        have h1 := preserves_powerKept.load ht a
        cases hr : load a t with
        | error e => rwa [hr] at h1
        | ok wu =>
          rw [hr] at h1
          exact vioChain_sound c0 vs r l (a + 1) (PowerKept.congr h1 (outputEffect_env o wu.1 wu.2))
      · next i _ =>
        have h1 := vioInput_sound ht i a
        cases hr : vioInput i a t with
        | error e => rwa [hr] at h1
        | ok u =>
          rw [hr] at h1
          exact vioChain_sound c0 vs r l (a + 1) h1
    · exact vioChain_sound c0 vs r l a ht

theorem execVio_sound {t : State} (ht : PowerKept s t) (ra rx : Reg) (addr : Word) :
    PowerOutcome s (execVio ra rx addr t) :=
  privileged_sound ht <| preserves_powerKept.withWord ht _ fun _ _ hu => preserves_powerKept.withWord hu _ fun _ _ hv =>
    (vioChain_sound _ _ _ _ _ hv).andThen fun _ hw => hw

theorem vectorRead_sound {t : State} (ht : PowerKept s t) (a : Word) :
    Sound (PowerKept s) (PowerOutcome s) Prod.snd (vectorRead a t) := by
  have h1 := takeTurn_sound ht
  unfold vectorRead
  cases hr : takeTurn t with
  | error o => rwa [hr] at h1
  | ok u =>
    rw [hr] at h1
    dsimp only
    rcases readNow_cases vectorAccess a u with ⟨_, hv⟩ | ⟨f, _, hv⟩ <;> rw [hv]
    · exact h1
    · exact PowerKept.congr h1 (memFault_env _ _ _ f u)

theorem linkageWrite_sound {t : State} (ht : PowerKept s t) (w a v : Word) :
    Sound (PowerKept s) (PowerOutcome s) id (linkageWrite w a v t) := by
  have h1 := takeTurn_sound ht
  unfold linkageWrite
  cases hr : takeTurn t with
  | error o => rwa [hr] at h1
  | ok u =>
    rw [hr] at h1
    dsimp only
    rcases writeNow_cases (linkageAccess w) a v u with ⟨_, hv⟩ | ⟨_, hv⟩ | ⟨f, _, _, hv⟩ <;> rw [hv]
    · exact h1
    · exact PowerKept.congr h1 (memFault_env _ _ _ _ u)
    · exact PowerKept.congr h1 (memFault_env _ _ _ f u)

theorem withVector_sound {t : State} (ht : PowerKept s t) (a : Word) {k : Word → State → Out}
    (hk : ∀ v {u}, PowerKept s u → PowerOutcome s (k v u)) : PowerOutcome s (withVector a t k) :=
  (vectorRead_sound ht a).andThen fun r hr => hk r.1 hr

theorem takeVector_sound {t : State} (ht : PowerKept s t) (n : BitNo) (off : Word) {request : State → State}
    (hq : ∀ u, (request u).env = u.env) : PowerOutcome s (takeVector n off request t) :=
  withVector_sound ht _ fun _ _ h1 => withVector_sound h1 _ fun _ _ h2 => withVector_sound h2 _ fun w _ h3 =>
    withVector_sound h3 _ fun _ _ h4 => withVector_sound h4 _ fun lp _ h5 =>
      (linkageWrite_sound h5 w lp _).andThen fun _ h6 => (linkageWrite_sound h6 w _ _).andThen fun _ h7 =>
        (linkageWrite_sound h7 w _ _).andThen fun v h8 => PowerKept.congr h8 ((loadSW_env _ _).trans (hq v))

theorem interruptSequence_sound {t : State} (ht : PowerKept s t) (n : BitNo) : PowerOutcome s (interruptSequence n t) := by
  unfold interruptSequence
  split
  · exact takeVector_sound (t := clearPending 1 t) (ht.congr rfl) 1 _ fun _ => rfl
  · exact takeVector_sound (ht.congr (freezeIoic_env n t)) n _ fun _ => rfl

/-! ## Fetching -/

theorem fetchNow_sound {t : State} (ht : PowerKept s t) :
    Sound (PowerKept s) (PowerOutcome s) Prod.snd (fetchNow t) := by
  rcases readNow_cases (fetchAccess t) t.ic t with ⟨_, hv⟩ | ⟨f, _, hv⟩
  · rw [fetchNow_of_ok hv]
    exact ht.congr rfl
  · rw [fetchNow_of_error hv]
    exact ht.congr (memFault_env _ _ _ f t)

theorem fetchNext_sound {t : State} (ht : PowerKept s t) :
    Sound (PowerKept s) (PowerOutcome s) Prod.snd (fetchNext t) := by
  have h1 := takeTurn_sound ht
  unfold fetchNext
  cases hr : takeTurn t with
  | error o => rwa [hr] at h1
  | ok u =>
    rw [hr] at h1
    exact fetchNow_sound h1

theorem fetchWords_sound : ∀ (k : Nat) {t : State}, PowerKept s t →
    Sound (PowerKept s) (PowerOutcome s) Prod.snd (fetchWords k t)
  | 0, _, ht => ht
  | k + 1, t, ht => by
    have h1 := fetchNext_sound ht
    unfold fetchWords
    cases hr : fetchNext t with
    | error o => rwa [hr] at h1
    | ok wu =>
      rw [hr] at h1
      have h2 := fetchWords_sound k h1
      dsimp only
      cases hr' : fetchWords k wu.2 with
      | error o => rwa [hr'] at h2
      | ok r => rwa [hr'] at h2

theorem decoded_sound {t : State} (ht : PowerKept s t) (w0 w1 ic : Word) :
    Sound (PowerKept s) (PowerOutcome s) Prod.snd (decoded w0 w1 ic t) := by
  unfold decoded
  split
  · exact ht.congr (raiseFault_env 9 _)
  · exact ht

theorem fetch_sound {t : State} (ht : PowerKept s t) : Sound (PowerKept s) (PowerOutcome s) Prod.snd (fetch t) := by
  have h1 := fetchNow_sound ht
  unfold fetch
  cases hr : fetchNow t with
  | error o => rwa [hr] at h1
  | ok wu =>
    rw [hr] at h1
    dsimp only
    split
    · have h2 := fetchNext_sound h1
      cases hr' : fetchNext wu.2 with
      | error o => rwa [hr'] at h2
      | ok wv =>
        rw [hr'] at h2
        exact decoded_sound h2 _ _ _
    · exact decoded_sound h1 _ _ _

theorem execBif_sound {t : State} (ht : PowerKept s t) (x : Byte) : PowerOutcome s (execBif x t) := by
  unfold execBif
  split
  · exact ht.congr (raiseFault_env 9 t)
  · exact (fetchWords_sound _ ht).andThen fun r hr => PowerKept.congr hr rfl

/-! ## Every instruction, the boundary and the step -/

theorem exec_sound {t : State} (ht : PowerKept s t) (i : Instr) : PowerOutcome s (exec i t) := by
  refine preserves_powerKept.exec ht i fun hi => ?_
  cases hi with
  | xio ra rx addr => exact privileged_sound ht (ht.congr (performIo_env ra (daLong rx addr t) t))
  | vio ra rx addr => exact execVio_sound ht ra rx addr
  | lst rx addr => exact privileged_sound ht (returnFrom_sound ht _)
  | lsti rx addr =>
    exact privileged_sound ht (preserves_powerKept.withPointer ht rx addr fun a _ hu => returnFrom_sound hu a)
  | bex n => exact takeVector_sound ht 5 _ fun _ => rfl
  | userFunction x => exact execBif_sound ht x

theorem recognize_sound {t : State} (ht : PowerKept s t) : PowerOutcome s (recognize t) := by
  unfold recognize
  dsimp only
  split
  · exact ht.congr (delayedEnable_env t)
  · split
    · exact ht.congr (delayedEnable_env t)
    · next n _ =>
      exact interruptSequence_sound (t := { delayedEnable t with piHold := 0x0000#16 }) (ht.congr (delayedEnable_env t)) n

theorem atBoundary_sound {o : Out} (ho : PowerOutcome s o) : PowerOutcome s (atBoundary o) := by
  cases o with
  | next t => exact (takeTurn_sound ho).andThen fun _ hu => recognize_sound hu
  | fault f => exact ho
  | refused r => exact ho

theorem runInstruction_sound {t : State} (ht : PowerKept s t) : PowerOutcome s (runInstruction t) := by
  have h1 := fetch_sound ht
  unfold runInstruction
  cases hr : fetch t with
  | error o =>
    rw [hr] at h1
    exact atBoundary_sound h1
  | ok iu =>
    rw [hr] at h1
    exact atBoundary_sound (exec_sound h1 iu.1)

theorem step_sound (s : State) : PowerOutcome s (step s) :=
  (takeTurn_sound (s := s) (t := s) id).andThen fun u hu => by
    split
    · exact hu
    · exact runInstruction_sound hu

end

/-- Settles O8: every reference either goes on, ends in a next state, or meets the loss of power. -/
theorem stepStopsOnlyOnPowerLoss : Obligations.StepStopsOnlyOnPowerLoss := by
  unfold Obligations.StepStopsOnlyOnPowerLoss
  intro s
  have h := step_sound s
  refine ⟨fun f hf => ?_, fun r hr => ?_⟩
  · rw [hf] at h
    exact h
  · rw [hr] at h
    exact h

end Sys2Proof.Machine

/-! # Faults, requests and interrupts (60_exceptions)

What a fetch that gives no instruction does, how requests become pending and are recognised, the sequence of an interrupt
and its return, and the timers. -/

namespace Sys2Proof.Machine

/-! ## Fetches that give no instruction (60_exceptions R790, 20_memory R222) -/

/-- An undefined first word has length one. -/
theorem lengthOf_of_refused {w0 : Word} (h : ∀ w1, Refused (decode w0 w1)) : lengthOf w0 = 1 := by
  obtain ⟨e, he⟩ := h 0x0000#16
  simp [lengthOf, he]

/-- A reserved first word ends the fetch with Fault 9 and IC past that one word. -/
theorem fetch_of_refused {s : State} {w0 : Word} (hr : readNow (fetchAccess s) s.ic s = .ok w0)
    (h : ∀ w1, Refused (decode w0 w1)) : fetch s = .error (.next (raiseFault 9 (advance 1 s))) := by
  obtain ⟨e, he⟩ := h 0x0000#16
  simp only [fetch, fetchNow_of_ok hr, lengthOf_of_refused h, decoded, he]

/-- A fault of the first fetch. -/
theorem fetch_of_first_error {s e : State} (hr : readNow (fetchAccess s) s.ic s = .error e) :
    fetch s = .error (.next (advance 1 e)) := by
  simp only [fetch, fetchNow_of_error hr]

/-- A fault of the fetch of the second word, after its turn. -/
theorem fetch_of_second_error {s v e : State} {w0 w1 : Word} {i : Instr} (hr : readNow (fetchAccess s) s.ic s = .ok w0)
    (hd : decode w0 w1 = .ok i) (hi : i.words = 2) (ht : takeTurn (advance 1 s) = .ok v)
    (hr' : readNow (fetchAccess v) v.ic v = .error e) : fetch s = .error (.next (advance 1 e)) := by
  simp only [fetch, fetchNow_of_ok hr, lengthOf_of_decode hd, hi, fetchNext, ht, fetchNow_of_error hr']

/-- A fetch that ends in a state is followed by the boundary. -/
theorem runInstruction_of_fetch_error {s t : State} (h : fetch s = .error (.next t)) : runInstruction s = boundary t := by
  simp only [runInstruction, h, atBoundary]

theorem readNow_error_ic {a : Access} {l : Word} {s e : State} (h : readNow a l s = .error e) : e.ic = s.ic := by
  rcases readNow_cases a l s with ⟨_, h'⟩ | ⟨f, _, h'⟩ <;> rw [h'] at h <;> cases h
  rw [memFault_frame]

/-- Settles O6: each way for a fetch to give no instruction ends in a state, which the boundary follows. -/
theorem fetchFaultsAndIllegalWordsTrap : Obligations.FetchFaultsAndIllegalWordsTrap := by
  unfold Obligations.FetchFaultsAndIllegalWordsTrap
  intro s u ht hh
  rw [step_of_running ht hh]
  refine ⟨fun w0 hr hd => ?_, fun v hr => ?_, fun x v w0 w1 i hr hd hi hx hv => ?_⟩
  · exact runInstruction_of_fetch_error (fetch_of_refused hr hd)
  · have hadv : advance 1 v = { v with ic := u.ic + 1 } := by
      rw [advance, readNow_error_ic hr]
      rfl
    rw [← hadv]
    exact runInstruction_of_fetch_error (fetch_of_first_error hr)
  · have hic : x.ic = u.ic + 1 := by rw [takeTurn_keeps hx]
    have hadv : advance 1 v = { v with ic := u.ic + 2 } := by
      rw [advance, readNow_error_ic hv, hic, BitVec.add_assoc]
      rfl
    rw [← hadv]
    exact runInstruction_of_fetch_error (fetch_of_second_error hr hd hi hx (hic ▸ hv))

/-! ## Requests (60_exceptions R763, R780, R782, R812) -/

theorem bitAt_or_bitMask (x : Word) (k n : BitNo) : bitAt (x ||| bitMask k) n = (decide (n = k) || bitAt x n) := by
  rw [bitAt_or, bitAt_bitMask, Bool.or_comm]

theorem raiseFault_of_implemented {k : BitNo} {s : State} (h : bitAt s.cfg.ftImplemented k = true) :
    raiseFault k s = { s with ft := s.ft ||| bitMask k, pi := s.pi ||| bitMask 1 } := by simp [raiseFault, h, raiseInterrupt]

theorem raiseFault_of_not_implemented {k : BitNo} {s : State} (h : bitAt s.cfg.ftImplemented k = false) :
    raiseFault k s = s := by simp [raiseFault, h]

theorem channelRequest_level1 (c : BitVec 7) (s : State) : channelRequest false c s = { s with
    pi := s.pi ||| bitMask 12
    ioic := { s.ioic with code1 := if s.cfg.ioic = true ∧ s.ioic.frozen1 = false then c else s.ioic.code1 } } := by
  by_cases h : s.cfg.ioic = true ∧ s.ioic.frozen1 = false
  · simp [channelRequest, raiseInterrupt, h]
  · have hb : (s.cfg.ioic && !s.ioic.frozen1) = false := by simpa using h
    simp only [channelRequest, raiseInterrupt, hb, if_neg h]
    rfl

theorem channelRequest_level2 (c : BitVec 7) (s : State) : channelRequest true c s = { s with
    pi := s.pi ||| bitMask 14
    ioic := { s.ioic with code2 := if s.cfg.ioic = true ∧ s.ioic.frozen2 = false then c else s.ioic.code2 } } := by
  by_cases h : s.cfg.ioic = true ∧ s.ioic.frozen2 = false
  · simp [channelRequest, raiseInterrupt, h]
  · have hb : (s.cfg.ioic && !s.ioic.frozen2) = false := by simpa using h
    simp only [channelRequest, raiseInterrupt, hb, if_neg h]
    rfl

/-- Settles O13: FT and PI receive one bit each, a request one bit of PI, whatever MK and IE hold. -/
theorem faultsAndRequestsBecomePending : Obligations.FaultsAndRequestsBecomePending := by
  unfold Obligations.FaultsAndRequestsBecomePending
  refine ⟨fun k n s => ⟨fun hk => ⟨raiseFault_frame k s, ?_⟩, raiseFault_of_not_implemented⟩, fun s => ⟨?_, ?_, ?_, ?_, ?_⟩⟩
  · rw [raiseFault_of_implemented hk]
    exact ⟨bitAt_or_bitMask s.ft k n, bitAt_or_bitMask s.pi 1 n⟩
  · intro n hn
    rw [applyEvent, externalRequest, raiseIf_eq, externalInterrupts, List.contains_iff_mem.2 hn]
    rfl
  · intro n hn
    have hc : externalInterrupts.contains n = false := by
      simpa [externalInterrupts] using hn
    rw [applyEvent, externalRequest, raiseIf_eq, hc]
    rfl
  · exact fun c => congrArg some (channelRequest_level1 c s)
  · exact fun c => congrArg some (channelRequest_level2 c s)
  · intro k
    simp [applyEvent, platformFault, platformFaultBits]

/-! ## Recognition (60_exceptions R765, R770, R771) -/

/-- What makes an interrupt eligible. -/
theorem eligible_iff (s : State) (n : BitNo) :
    eligible s n = true ↔ bitAt s.pi n = true ∧ bitAt s.piHold n = false ∧
      (n = 0 ∨ n = 5 ∨ (n = 1 ∧ bitAt s.mask 1 = true) ∨
        (n ≠ 0 ∧ n ≠ 1 ∧ n ≠ 5 ∧ bitAt s.mask n = true ∧ s.ie = true)) := by
  unfold eligible
  by_cases h05 : n = 0 ∨ n = 5
  · rcases h05 with rfl | rfl <;> simp
  · obtain ⟨h0, h5⟩ := not_or.1 h05
    by_cases h1 : n = 1
    · subst h1
      simp [and_assoc]
    · simp [h0, h1, h5, and_assoc]

/-- Bits 0 and 5 of the mask are not consulted. -/
theorem eligible_congr_mask {s : State} {w : Word} (h : ∀ k : BitNo, k ≠ 0 → k ≠ 5 → bitAt w k = bitAt s.mask k)
    (n : BitNo) : eligible { s with mask := w } n = eligible s n := by
  have h1 : bitAt w 1 = bitAt s.mask 1 := h 1 (by decide) (by decide)
  unfold eligible
  by_cases h05 : n = 0 ∨ n = 5
  · simp [h05]
  · obtain ⟨h0, h5⟩ := not_or.1 h05
    simp [h1, h n h0 h5]

/-- Settles O14: the recognition reads the mask at bit 1 and at the bits that IE gates. -/
theorem eligibleFollowsMaskAndEnable : Obligations.EligibleFollowsMaskAndEnable := by
  unfold Obligations.EligibleFollowsMaskAndEnable
  exact fun s n w => ⟨eligible_iff s n, rfl, rfl, fun h => eligible_congr_mask h n⟩

theorem interruptNumbers_getElem (k : BitNo) : interruptNumbers[k.val]? = some k := by
  revert k
  decide

/-- The smallest eligible interrupt is the next one. -/
theorem nextInterrupt_of_smallest {s : State} {n : BitNo} (hn : eligible s n = true)
    (hk : ∀ k : BitNo, k < n → eligible s k = false) : nextInterrupt s = some n := by
  have hlen : n.val < interruptNumbers.length := n.isLt
  refine List.find?_eq_some_iff_getElem.2 ⟨hn, n.val, hlen, ?_, fun j hj => ?_⟩
  · exact Option.some.inj ((List.getElem?_eq_getElem hlen).symm.trans (interruptNumbers_getElem n))
  · have hj' : interruptNumbers[j] = (⟨j, by omega⟩ : BitNo) := Option.some.inj
      ((List.getElem?_eq_getElem (by omega)).symm.trans (interruptNumbers_getElem ⟨j, by omega⟩))
    rw [hj', hk _ (Fin.lt_def.2 hj)]
    rfl

/-- A boundary that finds an interrupt takes it, the held bits released. -/
theorem boundary_of_taken {b s : State} {n : BitNo} (ht : takeTurn b = .ok s) (hh : s.halted = false)
    (hn : nextInterrupt (delayedEnable s) = some n) :
    boundary b = interruptSequence n { delayedEnable s with piHold := 0x0000#16 } := by
  simp [boundary, ht, recognize, hh, hn]

theorem delayedEnable_eq (s : State) :
    delayedEnable s = if s.enblPending = true ∧ s.enblIssued = false then { s with ie := true, enblPending := false }
      else { s with enblIssued := false } := by
  cases hp : s.enblPending <;> cases hi : s.enblIssued <;> simp [delayedEnable, hp, hi]

/-- Settles O15: the recognition follows the delayed enable and looks through the interrupts from number 0 on. -/
theorem boundaryTakesSmallestEligible : Obligations.BoundaryTakesSmallestEligible := by
  unfold Obligations.BoundaryTakesSmallestEligible
  intro b s u ht hu hh
  rw [← delayedEnable_eq] at hu
  subst hu
  exact ⟨fun n hn hk => boundary_of_taken ht hh (nextInterrupt_of_smallest hn hk),
    fun hnone => boundary_of_none_taken ht (.inr hnone)⟩


/-! ## The interrupt sequence with good references (60_exceptions R772, R773) -/

/-- Where the linkage area is depends on the parameters and the page file alone. -/
theorem linkageWord_congr {s t : State} (hc : t.cfg = s.cfg) (hp : t.pages = s.pages) (w lp : Word) :
    linkageWord w lp t = linkageWord w lp s := funext fun _ => translate_congr hc hp _ _

/-- The request does not touch what the linkage stores depend on. -/
theorem saveLinkage_clearPending (w lp : Word) (n : BitNo) (s : State) :
    saveLinkage w lp (clearPending n s) = clearPending n (saveLinkage w lp s) := by
  simp only [saveLinkage, linkageWord_congr (s := s) (t := clearPending n s) rfl rfl]
  rfl

theorem freezeIoic_eq (n : BitNo) (s : State) : freezeIoic n s = { s with
    ioic := { s.ioic with
      frozen1 := s.ioic.frozen1 || decide (n = 12), frozen2 := s.ioic.frozen2 || decide (n = 14) } } := by
  unfold freezeIoic
  split
  · next h =>
    subst h
    simp
  · split
    · next h =>
      subst h
      simp
    · next h12 h14 => simp [h12, h14]

/-- The references of the sequence read the same in a state with another request. -/
theorem VectorReads.congr {n : BitNo} {off svp m w i lp : Word} {s t : State} (h : VectorReads n off svp m w i lp s)
    (ht : t = { s with pi := t.pi, ioic := t.ioic }) : VectorReads n off svp m w i lp t := by
  have hread : ∀ {l v : Word}, readNow vectorAccess l s = .ok v → readNow vectorAccess l t = .ok v := fun hv => by
    rw [ht]
    exact readNow_congr (s := s) (t := { s with pi := t.pi, ioic := t.ioic }) rfl rfl rfl rfl rfl rfl rfl hv
  obtain ⟨hsvp, hm, hw, hi, hlp⟩ := h
  exact ⟨hread hsvp, hread hm, hread hw, hread hi, hread hlp⟩

theorem LinkageWritable.congr {w lp : Word} {s t : State} (h : LinkageWritable w lp s)
    (ht : t = { s with pi := t.pi, ioic := t.ioic }) : LinkageWritable w lp t := fun k hk => by
  rw [ht]
  exact (refFault_congr (s := s) rfl rfl rfl rfl rfl _ _ _ _).trans (h k hk)

/-- What the sequence of interrupt n does to the request and to the I/O interrupt codes, after its turns. -/
def requestTaken (n : BitNo) (s : State) : State := clearPending n (afterTurns 8 (freezeIoic n s))

/-- With every reference good the sequence saves the old state and loads the new one. -/
theorem interruptSequence_of_reads {n : BitNo} {s : State} {svp m w i lp : Word} (hq : QuietFor 8 s)
    (hr : VectorReads n 0x0000#16 svp m w i lp s) (hl : LinkageWritable w lp s) :
    interruptSequence n s =
      .next (disableInterrupts (loadStatus m w i (saveLinkage w lp (requestTaken n s)))) := by
  unfold interruptSequence requestTaken
  split
  · next h =>
    subst h
    rw [takeVector_of_reads (s := clearPending 1 s) _ hq (hr.congr rfl) (hl.congr rfl), saveLinkage_clearPending,
      saveLinkage_clearPending, saveLinkage_afterTurns]
    rfl
  · have hf : freezeIoic n s = { s with pi := (freezeIoic n s).pi, ioic := (freezeIoic n s).ioic } := by
      rw [freezeIoic_eq]
    have hqf : QuietFor 8 (freezeIoic n s) := by
      rw [freezeIoic_eq]
      exact hq
    rw [takeVector_of_reads _ hqf (hr.congr hf) (hl.congr hf), saveLinkage_clearPending, saveLinkage_afterTurns]

/-! ## The interrupt sequence with faulting references (60_exceptions R776) -/

/-- What k references of the sequence leave as it was: all but memory, the faults and the free values drawn. -/
structure SequenceKeeps (k : Nat) (s t : State) : Prop where
  frame : t = { s with mem := t.mem, pi := t.pi, ft := t.ft, mfsr := t.mfsr, draws := t.draws, env := s.env.drop k }
  ft : KeepsBits 0xFFFF#16 s.ft t.ft

namespace SequenceKeeps

variable {k n : Nat} {s t : State}

theorem memFault (h : SequenceKeeps k s t) (a : Access) (l : Word) (f : RefFault) :
    SequenceKeeps k s (memFault .cpu a l f t) where
  frame := by rw [memFault_frame, h.frame]
  ft := by
    rw [memFault_frame]
    exact h.ft.trans (keepsBits_of_and_eq (raiseFault_ft_keeps _ t))

theorem takeTurn (h : SequenceKeeps k s t) (hq : QuietFor n s) (hk : k < n) :
    takeTurn t = .ok (afterTurns 1 t) ∧ SequenceKeeps (k + 1) s (afterTurns 1 t) := by
  have he : t.env = s.env.drop k := by rw [h.frame]
  have hq1 : QuietFor 1 t := by
    unfold QuietFor
    rw [he]
    exact hq.nth hk
  refine ⟨takeTurn_of_quiet hq1, ?_, h.ft⟩
  rw [h.frame, afterTurns]
  simp only [List.drop_drop]

/-- A read of the sequence goes on. -/
theorem withVector (h : SequenceKeeps k s t) (hq : QuietFor n s) (hk : k < n) {a : Word} {f : Word → State → Out}
    {P : State → Prop} (hf : ∀ v u, SequenceKeeps (k + 1) s u → Completes (f v u) P) :
    Completes (withVector a t f) P := by
  obtain ⟨ht, h1⟩ := h.takeTurn hq hk
  unfold Machine.withVector vectorRead
  rw [ht]
  dsimp only
  rcases readNow_cases vectorAccess a (afterTurns 1 t) with ⟨_, hr⟩ | ⟨e, _, hr⟩ <;> rw [hr]
  · exact hf _ _ h1
  · refine hf _ _ { h1.memFault vectorAccess a e with frame := ?_ }
    rw [drawWord, (h1.memFault vectorAccess a e).frame]

/-- A store of the sequence goes on. -/
theorem linkageWrite (h : SequenceKeeps k s t) (hq : QuietFor n s) (hk : k < n) {w a v : Word} {f : State → Out}
    {P : State → Prop} (hf : ∀ u, SequenceKeeps (k + 1) s u → Completes (f u) P) :
    Completes (andThen (linkageWrite w a v t) f) P := by
  obtain ⟨ht, h1⟩ := h.takeTurn hq hk
  unfold Machine.linkageWrite
  rw [ht]
  dsimp only
  rcases writeNow_cases (linkageAccess w) a v (afterTurns 1 t) with ⟨_, hr⟩ | ⟨_, hr⟩ | ⟨e, _, _, hr⟩ <;> rw [hr]
  · refine hf _ { h1 with frame := ?_ }
    rw [physWrite, h1.frame]
  · exact hf _ (h1.memFault _ _ _)
  · exact hf _ (h1.memFault _ _ _)

end SequenceKeeps

/-- What the whole sequence keeps: the I/O interrupt codes, every bit of FT, and all that it does not load or disable. -/
def SequenceEnds (s t : State) : Prop :=
  t = { s with
    mem := t.mem, mask := t.mask, sw := t.sw, ic := t.ic, pi := t.pi, ft := t.ft, mfsr := t.mfsr, draws := t.draws,
    ie := false, enblPending := false, enblIssued := false, env := s.env.drop 8 } ∧ KeepsBits 0xFFFF#16 s.ft t.ft

theorem SequenceKeeps.loadStatus {s t : State} (h : SequenceKeeps 8 s t) {u : State} (hu : u = { t with pi := u.pi })
    (m w i : Word) : SequenceEnds s (disableInterrupts (loadStatus m w i u)) := by
  have hft : u.ft = t.ft := by rw [hu]
  have hframe := h.frame
  rw [loadStatus_eq]
  split
  · refine ⟨?_, hft ▸ h.ft⟩
    rw [hu, hframe]
    rfl
  · rw [disableInterrupts_raiseFault]
    refine ⟨?_, (hft ▸ h.ft).trans (keepsBits_of_and_eq (raiseFault_ft_keeps 11
      (disableInterrupts { u with mask := m, sw := w, ic := i })))⟩
    rw [raiseFault_frame, hu, hframe]
    rfl

/-- Whatever its references do, the sequence ends. -/
theorem takeVector_completes {s : State} (hq : QuietFor 8 s) (n : BitNo) (off : Word) {request : State → State}
    (hreq : ∀ u, request u = { u with pi := (request u).pi }) :
    Completes (takeVector n off request s) (SequenceEnds s) := by
  have h0 : SequenceKeeps 0 s s := ⟨rfl, .refl _ _⟩
  refine h0.withVector hq (by decide) fun svp _ h1 => ?_
  refine h1.withVector hq (by decide) fun m _ h2 => ?_
  refine h2.withVector hq (by decide) fun w _ h3 => ?_
  refine h3.withVector hq (by decide) fun i _ h4 => ?_
  refine h4.withVector hq (by decide) fun lp _ h5 => ?_
  refine h5.linkageWrite hq (by decide) fun _ h6 => ?_
  refine h6.linkageWrite hq (by decide) fun _ h7 => ?_
  refine h7.linkageWrite hq (by decide) fun u h8 => ?_
  exact ⟨_, rfl, h8.loadStatus (hreq u) m w i⟩

theorem interruptSequence_completes {s : State} (hq : QuietFor 8 s) (n : BitNo) :
    Completes (interruptSequence n s) fun t => ∃ u, SequenceEnds u t ∧
      u = { s with pi := u.pi, ioic := u.ioic } ∧ u.ioic.code1 = s.ioic.code1 ∧ u.ioic.code2 = s.ioic.code2 := by
  unfold interruptSequence
  split
  · exact (takeVector_completes (s := clearPending 1 s) hq 1 _ fun _ => rfl).imp fun t ht => ⟨_, ht, rfl, rfl, rfl⟩
  · have hqf : QuietFor 8 (freezeIoic n s) := by
      rw [freezeIoic_eq]
      exact hq
    refine (takeVector_completes hqf n _ fun _ => rfl).imp fun t ht => ⟨_, ht, ?_⟩
    rw [freezeIoic_eq]
    exact ⟨rfl, rfl, rfl⟩

/-- Settles O16: the first part follows the references that pass, the second any references. -/
theorem interruptSequenceSavesAndLoads : Obligations.InterruptSequenceSavesAndLoads := by
  unfold Obligations.InterruptSequenceSavesAndLoads
  refine ⟨fun n s svp m w i lp hwf hq hr hl => ⟨_, interruptSequence_of_reads hq hr hl, ?_⟩, fun n s hq => ?_⟩
  · rw [requestTaken, freezeIoic_eq]
    exact vectorTaken_of_saveLinkage m i hwf
  · refine (interruptSequence_completes hq n).imp fun t ⟨u, ⟨hframe, hft⟩, hu, hc1, hc2⟩ => ?_
    have hioic : t.ioic = u.ioic := by rw [hframe]
    have hsft : s.ft &&& 0xFFFF#16 = s.ft := BitVec.and_allOnes
    have huft : u.ft = s.ft := by rw [hu]
    refine ⟨?_, hioic ▸ hc1, hioic ▸ hc2, ?_⟩
    · rw [hframe, hu]
    · rw [huft] at hft
      exact hsft ▸ hft.and_eq


/-! ## The return from an interrupt (60_exceptions R777) -/

/-- What a loaded state shows of MK, SW, IC and the general registers. -/
theorem loadStatus_loads (m w i : Word) (s : State) : (loadStatus m w i s).mask = m ∧ (loadStatus m w i s).sw = w ∧
    (loadStatus m w i s).ic = i ∧ (loadStatus m w i s).regs = s.regs := by
  rw [loadStatus_eq]
  split
  · exact ⟨rfl, rfl, rfl, rfl⟩
  · rw [raiseFault_frame]
    exact ⟨rfl, rfl, rfl, rfl⟩

theorem VectorTaken.sw_eq {m w i lp : Word} {s t : State} (h : VectorTaken m w i lp s t) : t.sw = w := by
  rw [h.2]
  dsimp only
  split
  · rfl
  · rw [raiseFault_frame]

/-- What reading the linkage area as operands of the new state depends on is as before the sequence. -/
structure LinkageReadable (w lp : Word) (s u : State) : Prop where
  access : operAccess u = linkageAccess w
  cfg : u.cfg = s.cfg
  pages : u.pages = s.pages
  mprot : u.mprot = s.mprot
  mprotEn : u.mprotEn = s.mprotEn
  parityBad : u.parityBad = s.parityBad
  romEn : u.romEn = s.romEn

/-- An operand read of a linkage word delivers what stands there. -/
theorem LinkageReadable.reads {w lp : Word} {s u : State} (h : LinkageReadable w lp s u) {k : Nat}
    (hf : refFault s .cpu (linkageAccess w) false (lp + BitVec.ofNat 16 k) = none)
    (hrom : romWord s (linkageWord w lp s k) = none) :
    Reads u (lp + BitVec.ofNat 16 k) (Memory.readWord u.mem (linkageWord w lp s k)) := by
  have hf' := (refFault_congr h.cfg h.pages h.mprot h.mprotEn h.parityBad .cpu (linkageAccess w) false _).trans hf
  have hrom' := (romWord_congr h.cfg h.romEn (linkageWord w lp s k)).trans hrom
  have ht : translate u (linkageAccess w) (lp + BitVec.ofNat 16 k) = linkageWord w lp s k := translate_congr h.cfg h.pages _ _
  rw [Reads, h.access, readNow_of_none hf', ht, physRead, hrom']

theorem daLong_zero (addr : Word) (s : State) : daLong 0 addr s = addr := by simp [daLong, index]

/-- LST in privileged mode loads the three words it reads. -/
theorem exec_lst_of_reads {u : State} {lp m w i : Word} (hps : psOf u.sw = 0x0#4) (hq : QuietFor 3 u) (hm : Reads u lp m)
    (hw : Reads u (lp + 1) w) (hi : Reads u (lp + 2) i) :
    exec (.lst 0 lp) u = .next (loadStatus m w i (afterTurns 3 u)) := by
  have hq1 : QuietFor 2 (afterTurns 1 u) := hq.tail
  have hq2 : QuietFor 1 (afterTurns 2 u) := by
    rw [← afterTurns_afterTurns 1 1 u]
    exact hq1.tail
  rw [exec_lst 0 lp hps, daLong_zero]
  have load1 : load (lp + 1) (afterTurns 1 u) = .ok (w, afterTurns 2 u) := by
    rw [load_of_quiet hq1 (readNow_afterTurns hw), afterTurns_afterTurns]
  have load2 : load (lp + 2) (afterTurns 2 u) = .ok (i, afterTurns 3 u) := by
    rw [load_of_quiet hq2 (readNow_afterTurns hi), afterTurns_afterTurns]
  exact returnFrom_of_loads (load_of_quiet hq hm) load1 load2

/-- Settles O19: the new state reads the linkage area with the access the sequence stored it with. -/
theorem lstUndoesInterruptSequence : Obligations.LstUndoesInterruptSequence := by
  unfold Obligations.LstUndoesInterruptSequence
  intro n s svp m w i lp hwf hq hps hr hl hlink
  have hq8 : QuietFor 8 s := hq.mono (by decide)
  refine ⟨_, interruptSequence_of_reads hq8 hr hl, ?_⟩
  have hwf' : Memory.wf (requestTaken n s).mem = true := by
    rw [requestTaken, freezeIoic_eq]
    exact hwf
  have htaken := vectorTaken_of_saveLinkage (lp := lp) (w := w) m i hwf'
  obtain ⟨t, ht, hframe, _⟩ := interruptSequenceSavesAndLoads.2 n s hq8
  rw [interruptSequence_of_reads hq8 hr hl, Host.Outcome.next.injEq] at ht
  rw [ht] at htaken ⊢
  obtain ⟨hmask, hsw, hic, _⟩ := htaken.1
  have hread : LinkageReadable w lp s t := by
    have haccess : operAccess t = linkageAccess w := by rw [operAccess, htaken.sw_eq, hps, linkageAccess]
    refine ⟨haccess, ?_, ?_, ?_, ?_, ?_, ?_⟩ <;> rw [hframe]
  have hlinkWord : linkageWord w lp (requestTaken n s) = linkageWord w lp s := by
    rw [requestTaken, freezeIoic_eq]
    exact linkageWord_congr rfl rfl w lp
  have hold : (requestTaken n s).mask = s.mask ∧ (requestTaken n s).sw = s.sw ∧ (requestTaken n s).ic = s.ic := by
    rw [requestTaken, freezeIoic_eq]
    exact ⟨rfl, rfl, rfl⟩
  rw [hlinkWord, hold.1] at hmask
  rw [hlinkWord, hold.2.1] at hsw
  rw [hlinkWord, hold.2.2] at hic
  have hreads := fun k hk => hread.reads (hlink k hk).1 (hlink k hk).2
  have hlp : lp + BitVec.ofNat 16 0 = lp := BitVec.add_zero lp
  have hqt : QuietFor 3 t := fun k hk => by
    rw [hframe]
    simpa using hq (8 + k) (by omega)
  have hpst : psOf t.sw = 0x0#4 := htaken.sw_eq.symm ▸ hps
  refine ⟨_, exec_lst_of_reads hpst hqt (hlp ▸ hmask ▸ hreads 0 (by decide)) (hsw ▸ hreads 1 (by decide))
    (hic ▸ hreads 2 (by decide)), ?_⟩
  obtain ⟨h1, h2, h3, h4⟩ := loadStatus_loads s.mask s.sw s.ic (afterTurns 3 t)
  refine ⟨h1, h2, h3, h4.trans ?_⟩
  rw [hframe]
  rfl

/-! ## The timers (60_exceptions R815, R816, R818) -/

/-- The request after a tick: the count of the k-th tick rolls over when it reaches 65536. -/
theorem rollover_succ {x p m : Word} {k : Nat} (hk : k < 65536) :
    (if decide (x + BitVec.ofNat 16 k = 0xFFFF#16) then (if 65536 ≤ x.toNat + k then p ||| m else p) ||| m
      else if 65536 ≤ x.toNat + k then p ||| m else p) = if 65536 ≤ x.toNat + (k + 1) then p ||| m else p := by
  have hx := x.isLt
  have hroll : x + BitVec.ofNat 16 k = 0xFFFF#16 ↔ x.toNat + k = 65535 := by
    rw [← BitVec.toNat_inj, BitVec.toNat_add, BitVec.toNat_ofNat, BitVec.toNat_ofNat]
    omega
  by_cases h : x.toNat + k = 65535
  · simp [hroll, h, show 65536 ≤ x.toNat + (k + 1) by omega]
  · have hle : 65536 ≤ x.toNat + (k + 1) ↔ 65536 ≤ x.toNat + k := by omega
    simp [hroll, h, hle]

theorem add_ofNat_succ (x : Word) (k : Nat) : x + BitVec.ofNat 16 k + 1 = x + BitVec.ofNat 16 (k + 1) := by
  rw [BitVec.ofNat_add, BitVec.add_assoc]
  rfl

section
variable {s : State} (hc : s.cfg.timers = true) (hh : s.halted = false)
include hc hh

/-- A tick of the running timer A. -/
theorem tickTimerA_of_running (hr : s.timers.taRun = true) : tickTimerA s = { s with
    timers := { s.timers with ta := s.timers.ta + 1 }
    pi := if decide (s.timers.ta = 0xFFFF#16) then s.pi ||| bitMask 7 else s.pi } := by
  simp [tickTimerA, hc, hh, hr, raiseIf_eq]

theorem tickTimerB_of_running (hr : s.timers.tbRun = true) : tickTimerB s = { s with
    timers := { s.timers with tb := s.timers.tb + 1 }
    pi := if decide (s.timers.tb = 0xFFFF#16) then s.pi ||| bitMask 9 else s.pi } := by
  simp [tickTimerB, hc, hh, hr, raiseIf_eq]

theorem iterate_tickTimerA (hr : s.timers.taRun = true) : ∀ k, k ≤ 65536 → tickTimerA^[k] s = { s with
    timers := { s.timers with ta := s.timers.ta + BitVec.ofNat 16 k }
    pi := if 65536 ≤ s.timers.ta.toNat + k then s.pi ||| bitMask 7 else s.pi }
  | 0, _ => by
    have hx := s.timers.ta.isLt
    simp [show ¬65536 ≤ s.timers.ta.toNat by omega]
  | k + 1, hk => by
    rw [Function.iterate_succ_apply', iterate_tickTimerA hr k (by omega)]
    refine (tickTimerA_of_running (by exact hc) (by exact hh) (by exact hr)).trans ?_
    simp only [add_ofNat_succ, rollover_succ (show k < 65536 by omega)]

theorem iterate_tickTimerB (hr : s.timers.tbRun = true) : ∀ k, k ≤ 65536 → tickTimerB^[k] s = { s with
    timers := { s.timers with tb := s.timers.tb + BitVec.ofNat 16 k }
    pi := if 65536 ≤ s.timers.tb.toNat + k then s.pi ||| bitMask 9 else s.pi }
  | 0, _ => by
    have hx := s.timers.tb.isLt
    simp [show ¬65536 ≤ s.timers.tb.toNat by omega]
  | k + 1, hk => by
    rw [Function.iterate_succ_apply', iterate_tickTimerB hr k (by omega)]
    refine (tickTimerB_of_running (by exact hc) (by exact hh) (by exact hr)).trans ?_
    simp only [add_ofNat_succ, rollover_succ (show k < 65536 by omega)]

end

/-- Settles O21: by induction on the number of ticks. -/
theorem timersCountAndRequest : Obligations.TimersCountAndRequest := by
  unfold Obligations.TimersCountAndRequest
  refine ⟨fun s => ⟨rfl, rfl⟩, fun s k hc hh hk => ?_, fun s => ⟨fun h => ?_, fun h => ?_⟩⟩
  · exact ⟨fun hr => iterate_tickTimerA hc hh hr k hk, fun hr => iterate_tickTimerB hc hh hr k hk⟩
  · rcases h with h | h | h <;> simp [applyEvent, tickTimerA, h]
  · rcases h with h | h | h <;> simp [applyEvent, tickTimerB, h]

end Sys2Proof.Machine

/-! # Logic, exchange, comparison and the miscellaneous instructions (49_logic_compare_misc) -/

namespace Sys2Proof.Machine

/-! ## Logic and exchange (49_logic_compare_misc R700 to R721) -/

/-- The two bytes of a word exchanged, as an exact number. -/
theorem exchangedBytes_eq (x : Word) :
    lowerByte x ++ upperByte x = BitVec.ofNat 16 (x.toNat % 256 * 256 + x.toNat / 256) := by
  rw [append_eq_ofNat, lowerByte_toNat, upperByte_toNat]

/-- An exchange of two registers, which may be one. -/
theorem exchangedRegs_reg (s : State) (ra rb : Reg) :
    ((s.setReg ra (s.reg rb)).setReg rb (s.reg ra)).reg ra = s.reg rb ∧
      ((s.setReg ra (s.reg rb)).setReg rb (s.reg ra)).reg rb = s.reg ra := by
  refine ⟨?_, State.reg_setReg_same _ rb _⟩
  rw [State.reg_setReg, State.reg_setReg_same]
  split
  · next h => rw [h]
  · rfl

theorem exec_xwr_completes (s : State) (ra rb : Reg) : Completes (exec (.xwr ra rb) s) fun t =>
    Frame [ra, rb] s t ∧ t.reg ra = s.reg rb ∧ t.reg rb = s.reg ra ∧ csOf t.sw = signCS (t.reg ra).toInt ∧ t.pi = s.pi := by
  obtain ⟨ha, hb⟩ := exchangedRegs_reg s ra rb
  have hk : KeepsRegs [ra, rb] s ((s.setReg ra (s.reg rb)).setReg rb (s.reg ra)) := fun r hr => by
    obtain ⟨h1, h2⟩ : r ≠ ra ∧ r ≠ rb := by simpa using hr
    rw [State.reg_setReg_other _ _ h2, State.reg_setReg_other _ _ h1]
  refine ⟨_, rfl, frame_raiseIf_setCS rfl hk false 0 _, ha, hb, ?_, rfl⟩
  rw [setCS_reg, ha, ← csSign_eq]
  exact csOf_withCS s.sw _

section
variable (ra : Reg) (s : State) (d : Word)

theorem orTo_wordPut : WordPut ra (s.reg ra ||| d) s (orTo ra d s) := putWord_wordPut ra _ s

theorem andTo_wordPut : WordPut ra (s.reg ra &&& d) s (andTo ra d s) := putWord_wordPut ra _ s

theorem xorTo_wordPut : WordPut ra (s.reg ra ^^^ d) s (xorTo ra d s) := putWord_wordPut ra _ s

theorem nandTo_wordPut : WordPut ra (~~~(s.reg ra &&& d)) s (nandTo ra d s) := putWord_wordPut ra _ s

end

/-- Settles O52: the forms of one operation differ in where its operand comes from. -/
theorem logicAndExchangePutResult : Obligations.LogicAndExchangePutResult := by
  unfold Obligations.LogicAndExchangePutResult
  intro disj conj excl nand
  refine ⟨⟨?orr, ⟨?orb, ?orbx⟩, ?or, ?orim⟩, ⟨?andr, ⟨?andb, ?andx⟩, ?and, ?andm⟩, ⟨?xorr, ?xor, ?xorm⟩, ⟨?nr, ?n, ?nim⟩,
    ?xbr, exec_xwr_completes⟩
  case orr => exact fun s ra rb => ⟨_, rfl, orTo_wordPut ra s (s.reg rb)⟩
  case orb => exact fun s br dspl => withWord_withWordAt (orTo_wordPut 2) (daBase br dspl s) s
  case orbx => exact fun s br rx => withWord_withWordAt (orTo_wordPut 2) (daBaseIndexed br rx s) s
  case or => exact fun s ra rx addr => withWord_withWordAt (orTo_wordPut ra) (daLong rx addr s) s
  case orim => exact fun s ra data => ⟨_, rfl, orTo_wordPut ra s data⟩
  case andr => exact fun s ra rb => ⟨_, rfl, andTo_wordPut ra s (s.reg rb)⟩
  case andb => exact fun s br dspl => withWord_withWordAt (andTo_wordPut 2) (daBase br dspl s) s
  case andx => exact fun s br rx => withWord_withWordAt (andTo_wordPut 2) (daBaseIndexed br rx s) s
  case and => exact fun s ra rx addr => withWord_withWordAt (andTo_wordPut ra) (daLong rx addr s) s
  case andm => exact fun s ra data => ⟨_, rfl, andTo_wordPut ra s data⟩
  case xorr => exact fun s ra rb => ⟨_, rfl, xorTo_wordPut ra s (s.reg rb)⟩
  case xor => exact fun s ra rx addr => withWord_withWordAt (xorTo_wordPut ra) (daLong rx addr s) s
  case xorm => exact fun s ra data => ⟨_, rfl, xorTo_wordPut ra s data⟩
  case nr => exact fun s ra rb => ⟨_, rfl, nandTo_wordPut ra s (s.reg rb)⟩
  case n => exact fun s ra rx addr => withWord_withWordAt (nandTo_wordPut ra) (daLong rx addr s) s
  case nim => exact fun s ra data => ⟨_, rfl, nandTo_wordPut ra s data⟩
  case xbr => exact fun s ra => ⟨_, rfl, exchangedBytes_eq (s.reg ra) ▸ putWord_wordPut ra _ s⟩

/-! ## Comparison (49_logic_compare_misc R722 to R737) -/

section
variable (ra : Reg) (s : State)

theorem compareWith_status (d : Word) : StatusResult (orderCS (s.reg ra).toInt d.toInt) s (compareWith ra d s) := rfl

theorem compareWith2_status (d : DWord) : StatusResult (orderCS (s.pair ra).toInt d.toInt) s (compareWith2 ra d s) := rfl

end

/-- CBL reads the lower limit, then the upper one, and compares RA with them. -/
theorem exec_cbl_of_loads {s u v : State} {ra rx : Reg} {addr lo hi : Word} (hlo : load (daLong rx addr s) s = .ok (lo, u))
    (hhi : load (daLong rx addr s + 1) u = .ok (hi, v)) :
    exec (.cbl ra rx addr) s = .next (setCS (csLimits (s.reg ra).toInt lo.toInt hi.toInt) v) := by
  have hregs : u.regs = s.regs := (load_keeps hlo).1
  change execCbl ra rx addr s = _
  rw [execCbl, withWord_of_load _ hlo, daLong_congr hregs, withWord_of_load _ hhi, State.reg, (load_keeps hhi).1, hregs]
  rfl

/-- Settles O53: a comparison is the order of two exact integers; CBL tests the inverted limits first. -/
theorem comparesOrderIntegers : Obligations.ComparesOrderIntegers := by
  unfold Obligations.ComparesOrderIntegers
  intro P P2
  refine ⟨?cr, ⟨?cb, ?cbx⟩, ?cisp, ?cisn, ?c, ?cim, ?dcr, ?dc, ?cbl⟩
  case cr => exact fun s ra rb => ⟨_, rfl, compareWith_status ra s (s.reg rb)⟩
  case cb => exact fun s br dspl => withWord_withWordAt (compareWith_status 2) (daBase br dspl s) s
  case cbx => exact fun s br rx => withWord_withWordAt (compareWith_status 2) (daBaseIndexed br rx s) s
  case cisp => exact fun s ra n => ⟨_, rfl, shortPositive_eq_ofInt n ▸ compareWith_status ra s (shortPositive n)⟩
  case cisn => exact fun s ra n => ⟨_, rfl, shortNegative_eq_ofInt n ▸ compareWith_status ra s (shortNegative n)⟩
  case c => exact fun s ra rx addr => withWord_withWordAt (compareWith_status ra) (daLong rx addr s) s
  case cim => exact fun s ra data => ⟨_, rfl, compareWith_status ra s data⟩
  case dcr => exact fun s ra rb => ⟨_, rfl, compareWith2_status ra s (s.pair rb)⟩
  case dc => exact fun s ra rx addr => withDouble_withDoubleAt (compareWith2_status ra) (daLong rx addr s) s
  case cbl => exact fun s u v ra rx addr lo hi hlo hhi => ⟨_, exec_cbl_of_loads hlo hhi, rfl⟩

/-! ## The further words of a Built-In-Function (49_logic_compare_misc R745, 30_encoding R277) -/

/-- A fetched word: IC has passed it, and only turns have changed the state. -/
theorem fetchNext_ok {s u : State} {w : Word} (h : fetchNext s = .ok (w, u)) : u.ic = s.ic + 1 ∧ u.cfg = s.cfg := by
  unfold fetchNext at h
  cases ht : takeTurn s with
  | error o => simp [ht] at h
  | ok v =>
    rw [ht] at h
    dsimp only at h
    have hic : v.ic = s.ic := by rw [takeTurn_keeps ht]
    have hcfg : v.cfg = s.cfg := by rw [takeTurn_keeps ht]
    rcases readNow_cases (fetchAccess v) v.ic v with ⟨_, hr⟩ | ⟨f, _, hr⟩
    · rw [fetchNow_of_ok hr] at h
      cases h
      exact ⟨congrArg (· + 1) hic, hcfg⟩
    · rw [fetchNow_of_error hr] at h
      cases h

theorem fetchWords_ok : ∀ {k : Nat} {s u : State} {ws : List Word}, fetchWords k s = .ok (ws, u) →
    ws.length = k ∧ u.ic = s.ic + BitVec.ofNat 16 k ∧ u.cfg = s.cfg
  | 0, s, u, ws, h => by
    cases h
    exact ⟨rfl, (BitVec.add_zero s.ic).symm, rfl⟩
  | k + 1, s, u, ws, h => by
    unfold fetchWords at h
    cases h1 : fetchNext s with
    | error o => simp [h1] at h
    | ok r =>
      rw [h1] at h
      dsimp only at h
      cases h2 : fetchWords k r.2 with
      | error o => simp [h2] at h
      | ok q =>
        rw [h2] at h
        cases h
        obtain ⟨hic, hcfg⟩ := fetchNext_ok h1
        obtain ⟨hlen, hic', hcfg'⟩ := fetchWords_ok h2
        refine ⟨congrArg (· + 1) hlen, ?_, hcfg'.trans hcfg⟩
        rw [hic', hic, Nat.add_comm k 1, BitVec.ofNat_add, BitVec.add_assoc]
        rfl

/-- In quiet turns the words that stand at IC are fetched. -/
theorem fetchWords_of_reads : ∀ {k : Nat} {s : State} {ws : List Word}, ws.length = k → QuietFor k s →
    (∀ j w, ws[j]? = some w → readNow (fetchAccess s) (s.ic + BitVec.ofNat 16 j) s = .ok w) →
    fetchWords k s = .ok (ws, { afterTurns k s with ic := s.ic + BitVec.ofNat 16 k })
  | 0, s, ws, hlen, _, _ => by
    rw [List.length_eq_zero_iff.1 hlen]
    simp [fetchWords, afterTurns]
  | k + 1, s, [], hlen, _, _ => by cases hlen
  | k + 1, s, w :: ws, hlen, hq, hr => by
    have hw : readNow (fetchAccess s) s.ic (afterTurns 1 s) = .ok w := by
      have h0 := hr 0 w rfl
      rw [show s.ic + BitVec.ofNat 16 0 = s.ic from BitVec.add_zero s.ic] at h0
      exact readNow_afterTurns h0
    have hfirst : fetchNext s = .ok (w, advance 1 (afterTurns 1 s)) := fetchNext_of_ok (takeTurn_of_quiet hq) hw
    have hrest := fetchWords_of_reads (s := advance 1 (afterTurns 1 s)) (Nat.succ.inj hlen) hq.tail fun j v hv => by
      have h1 := hr (j + 1) v hv
      rw [← slot_address_succ] at h1
      exact readNow_advance_ok 1 (readNow_afterTurns h1)
    have henv : (s.env.drop 1).drop k = s.env.drop (k + 1) := by rw [List.drop_drop, Nat.add_comm]
    simp only [fetchWords, hfirst, hrest]
    change Except.ok (w :: ws, { s with env := (s.env.drop 1).drop k, ic := s.ic + 1 + BitVec.ofNat 16 k }) = _
    rw [henv, slot_address_succ]
    rfl

/-! ## The state that a user defined function gives (49_logic_compare_misc R745) -/

/-- A byte above all listed ones is listed last. -/
theorem Memory.writeByte_above {v : Byte} (hv : v ≠ unlistedByte) {a : Nat} : ∀ {m : Memory}, (∀ c ∈ m, c.1 < a) →
    Memory.writeByte m a v = m ++ [(a, v)]
  | [], _ => if_neg hv
  | (b, w) :: rest, hm => by
    have hb : b < a := hm (b, w) List.mem_cons_self
    have ih := Memory.writeByte_above hv fun c hc => hm c (List.mem_cons_of_mem _ hc)
    rw [Memory.writeByte, if_neg (by omega), if_neg (by omega), ih, List.cons_append]

/-- Writing the bytes of a canonical list above a memory appends the list. -/
theorem Memory.foldl_image_of_wfFrom : ∀ {image : List Host.Cell} {m : Memory} {lo : Nat},
    Memory.wfFrom lo image = true → (∀ c ∈ m, c.1 < lo) →
    image.foldl (fun m c => if c.1 < memoryBytes then Memory.writeByte m c.1 c.2 else m) m = m ++ image
  | [], m, _, _, _ => (List.append_nil m).symm
  | (a, v) :: rest, m, lo, hw, hm => by
    simp only [Memory.wfFrom, Bool.and_eq_true, decide_eq_true_eq] at hw
    obtain ⟨⟨⟨hlo, hlt⟩, hv⟩, hrest⟩ := hw
    have hbelow : ∀ c ∈ m ++ [(a, v)], c.1 < a + 1 := fun c hc => by
      rcases List.mem_append.1 hc with h | h
      · have := hm c h
        omega
      · rw [List.mem_singleton.1 h]
        exact Nat.lt_succ_self a
    rw [List.foldl_cons, if_pos hlt, Memory.writeByte_above hv fun c hc => Nat.lt_of_lt_of_le (hm c hc) hlo,
      Memory.foldl_image_of_wfFrom hrest hbelow, List.append_assoc, List.singleton_append]

/-- A memory in canonical form is its own image. -/
theorem Memory.ofImage_of_wf {m : Memory} (h : Memory.wf m = true) : Memory.ofImage m = m :=
  Memory.foldl_image_of_wfFrom h (fun _ hc => absurd hc List.not_mem_nil)

/-- Each page register is kept in its stored form. -/
theorem pageRegister_storedPages {s t : State} (c : Config) (ht : t.pages = storedPages c s.pages) (kind : RefKind)
    (g y : BitVec 4) : pageRegister t kind g y = pageWord c (pageRegister s kind g y) := by
  unfold pageRegister
  rw [ht, storedPages]
  cases kind <;> simp only [PageGroup.setOf, Vector.get_eq_getElem, Vector.getElem_map]

section
variable {s : State} {x : Byte} {k : Nat}

theorem exec_bif_of_defined (h : s.cfg.bifSet.lookup x = some k) :
    exec (.bif x) s = andThen (fetchWords k s) fun r => .next (userResult r.2 (Config.userFunction x r.1 r.2)) := by
  change execBif x s = _
  rw [execBif, h]

/-- A fault of the first further word ends the instruction. -/
theorem fetchWords_of_first_error {e : State} (hk : 0 < k) (hq : QuietFor 1 s)
    (hr : readNow (fetchAccess s) s.ic { afterTurns 1 s with ic := s.ic + 1 } = .error e) :
    fetchWords k s = .error (.next e) := by
  obtain ⟨j, rfl⟩ := Nat.exists_eq_add_of_lt hk
  have hfirst : fetchNext s = .error (.next e) := by
    have hr' : readNow (fetchAccess (afterTurns 1 s)) (afterTurns 1 s).ic (advance 1 (afterTurns 1 s)) = .error e := hr
    simp only [fetchNext, takeTurn_of_quiet hq, fetchNow, hr']
  rw [Nat.zero_add, fetchWords, hfirst]

/-- What is kept of the state that a user defined function gives. -/
theorem userResult_kept (u f : State) (h : u.cfg = s.cfg) :
    (userResult u f = { f with
      mem := (userResult u f).mem, pages := (userResult u f).pages, ft := f.ft &&& s.cfg.ftImplemented,
      console := { f.console with connected := u.console.connected }, cfg := s.cfg, env := u.env,
      parityBad := u.parityBad, draws := u.draws }) ∧
    Memory.wf (userResult u f).mem = true ∧ (Memory.wf f.mem = true → (userResult u f).mem = f.mem) ∧
    ∀ (kind : RefKind) (g y : BitVec 4), pageRegister (userResult u f) kind g y = pageWord s.cfg (pageRegister f kind g y) := by
  rw [← h]
  exact ⟨rfl, Memory.wf_ofImage _, Memory.ofImage_of_wf, pageRegister_storedPages u.cfg rfl⟩

end

/-- Settles O54: BIF is the fetch of its further words and then the function of the platform. -/
theorem nopBreakpointAndUserFunction : Obligations.NopBreakpointAndUserFunction := by
  unfold Obligations.NopBreakpointAndUserFunction
  intro s
  refine ⟨rfl, fun ⟨hk, hp⟩ => ?_, fun hn => ?_, fun x => ⟨exec_bif_of_undefined, fun k hx => ?_⟩⟩
  · change execBpt s = _
    rw [execBpt, if_pos (consolePresent_of_connected hk hp)]
  · change execBpt s = _
    rw [execBpt, if_neg]
    simpa [consolePresent] using hn
  · rw [exec_bif_of_defined hx]
    refine ⟨fun o ho => ?_, fun e hk hq hr => ?_, fun ws u hu => ?_, fun ws => fetchWords_of_reads⟩
    · rw [ho, andThen_error]
    · rw [fetchWords_of_first_error hk hq hr, andThen_error]
    · obtain ⟨hlen, hic, hcfg⟩ := fetchWords_ok hu
      refine ⟨hlen, hic, _, congrArg (fun r => andThen r _) hu, userResult_kept u _ hcfg⟩

end Sys2Proof.Machine

/-! # Floating point (48_float) -/

namespace Sys2Proof.Machine

/-! ## The formats (48_float R640) -/

theorem normalizedMantissa_iff (w : Nat) (m : Int) : normalizedMantissa w m = true ↔ Normalized w m := by
  simp [normalizedMantissa, Normalized]

theorem validOperand_iff (w : Nat) (x : Unpacked) : validOperand w x = true ↔ GoodFloat w x := by
  simp [validOperand, GoodFloat, normalizedMantissa_iff]

/-- A number that has a pattern: mantissa of `w` bits, exponent of 8 bits. -/
structure InFormat (w : Nat) (x : Unpacked) : Prop where
  m_lower : -(2 : Int) ^ (w - 1) ≤ x.m
  m_upper : x.m < (2 : Int) ^ (w - 1)
  e_lower : -128 ≤ x.e
  e_upper : x.e ≤ 127

theorem inFormat_of_toInt {w : Nat} (m : BitVec w) (e : Byte) : InFormat w { m := m.toInt, e := e.toInt } where
  m_lower := BitVec.le_toInt m
  m_upper := BitVec.toInt_lt
  e_lower := BitVec.le_toInt e
  e_upper := Int.le_of_lt_add_one (BitVec.toInt_lt (x := e))

theorem unpack32_inFormat (x : DWord) : InFormat 24 (unpack32 x) := inFormat_of_toInt _ _

theorem unpack48_inFormat (x : TWord) : InFormat 40 (unpack48 x) :=
  inFormat_of_toInt (x.extractLsb' 24 24 ++ x.extractLsb' 0 16) _

theorem InFormat.toInt_m {w : Nat} {x : Unpacked} (hw : 0 < w) (h : InFormat w x) : (BitVec.ofInt w x.m).toInt = x.m :=
  BitVec.toInt_ofInt_eq_self hw h.m_lower h.m_upper

theorem InFormat.toInt_e {w : Nat} {x : Unpacked} (h : InFormat w x) : (BitVec.ofInt 8 x.e).toInt = x.e :=
  BitVec.toInt_ofInt_eq_self (by decide) h.e_lower (Int.lt_add_one_of_le h.e_upper)

theorem unpack32_append (m : BitVec 24) (e : Byte) : unpack32 (m ++ e) = { m := m.toInt, e := e.toInt } := by
  rw [unpack32, BitVec.extractLsb'_append_eq_left, BitVec.extractLsb'_append_eq_right]

/-- The mantissa of an extended number is in two parts, above and below its exponent. -/
theorem splitMantissa_fields (a : BitVec 24) (e : Byte) (b : Word) : ((a ++ e) ++ b).extractLsb' 24 24 = a ∧
    ((a ++ e) ++ b).extractLsb' 16 8 = e ∧ ((a ++ e) ++ b).extractLsb' 0 16 = b := by
  have ha := a.isLt
  have he := e.isLt
  have hb := b.isLt
  refine ⟨BitVec.eq_of_toNat_eq ?_, BitVec.eq_of_toNat_eq ?_, BitVec.extractLsb'_append_eq_right⟩ <;>
    rw [BitVec.extractLsb'_toNat, toNat_append_eq, toNat_append_eq, Nat.shiftRight_eq_div_pow] <;> omega

theorem mantissaParts (m : BitVec 40) : m.extractLsb' 16 24 ++ m.extractLsb' 0 16 = m := by
  have hm := m.isLt
  refine BitVec.eq_of_toNat_eq ?_
  rw [toNat_append_eq, BitVec.extractLsb'_toNat, BitVec.extractLsb'_toNat, Nat.shiftRight_eq_div_pow, Nat.shiftRight_zero]
  omega

theorem unpack48_append (m : BitVec 40) (e : Byte) :
    unpack48 ((m.extractLsb' 16 24 ++ e) ++ m.extractLsb' 0 16) = { m := m.toInt, e := e.toInt } := by
  obtain ⟨hhigh, hexp, hlow⟩ := splitMantissa_fields (m.extractLsb' 16 24) e (m.extractLsb' 0 16)
  rw [unpack48, hhigh, hexp, hlow, mantissaParts]

theorem unpack32_pack32 {x : Unpacked} (h : InFormat 24 x) : unpack32 (pack32 x.m x.e) = x := by
  rw [pack32, unpack32_append, h.toInt_m (by decide), h.toInt_e]

theorem unpack48_pack48 {x : Unpacked} (h : InFormat 40 x) : unpack48 (pack48 x.m x.e) = x := by
  rw [pack48, unpack48_append, h.toInt_m (by decide), h.toInt_e]

/-! ## The sign of a packed number (48_float R642) -/

theorem append_eq_zero_iff {v w : Nat} (x : BitVec v) (y : BitVec w) : x ++ y = 0#(v + w) ↔ x = 0#v ∧ y = 0#w := by
  rw [← BitVec.toNat_inj, ← BitVec.toNat_inj, ← BitVec.toNat_inj, toNat_append_eq]
  simp [Nat.add_eq_zero_iff]

/-- The sign of a pattern is that of its first part, unless that part is zero and the rest is not. -/
theorem csSign_append {v w : Nat} {x : BitVec v} {y : BitVec w} (hv : 0 < v) (h : x = 0#v → y = 0#w) :
    csSign (x ++ y) = csSign x := by
  have hz : x ++ y = 0#(v + w) ↔ x = 0#v := by
    rw [append_eq_zero_iff]
    exact ⟨And.left, fun hx => ⟨hx, h hx⟩⟩
  have hm : (x ++ y).msb = x.msb := by rw [BitVec.msb_append, if_neg (by simpa using hv.ne')]
  simp only [csSign, hz, hm]

theorem ofInt_eq_zero_iff {w : Nat} {x : Unpacked} (hw : 0 < w) (h : InFormat w x) : BitVec.ofInt w x.m = 0#w ↔ x.m = 0 := by
  rw [← BitVec.toInt_inj, h.toInt_m hw, BitVec.toInt_zero]

theorem csSign_pack32 {x : Unpacked} (h : InFormat 24 x) (h0 : x.m = 0 → x.e = 0) : csSign (pack32 x.m x.e) = signCS x.m := by
  rw [pack32, csSign_append (by decide), csSign_eq, h.toInt_m (by decide)]
  intro hm
  rw [h0 ((ofInt_eq_zero_iff (by decide) h).1 hm)]
  rfl

/-- The exponent between the two parts of a mantissa does not change the sign. -/
theorem csSign_splitMantissa {m : BitVec 40} {e : Byte} (h : m = 0#40 → e = 0#8) :
    csSign ((m.extractLsb' 16 24 ++ e) ++ m.extractLsb' 0 16) = csSign m := by
  have hparts : m = 0#40 ↔ m.extractLsb' 16 24 = 0#24 ∧ m.extractLsb' 0 16 = 0#16 := by
    rw [← append_eq_zero_iff, mantissaParts]
  have hzero : (m.extractLsb' 16 24 ++ e) ++ m.extractLsb' 0 16 = 0#48 ↔ m = 0#40 := by
    rw [append_eq_zero_iff (m.extractLsb' 16 24 ++ e), append_eq_zero_iff, hparts]
    exact ⟨fun ⟨⟨hh, _⟩, hl⟩ => ⟨hh, hl⟩, fun hm => ⟨⟨hm.1, h (hparts.2 hm)⟩, hm.2⟩⟩
  have hmsb : ((m.extractLsb' 16 24 ++ e) ++ m.extractLsb' 0 16).msb = m.msb := by
    rw [BitVec.msb_append, if_neg (by decide), BitVec.msb_append, if_neg (by decide), ← congrArg BitVec.msb (mantissaParts m),
      BitVec.msb_append, if_neg (by decide)]
  simp only [csSign, hzero, hmsb]

theorem csSign_pack48 {x : Unpacked} (h : InFormat 40 x) (h0 : x.m = 0 → x.e = 0) : csSign (pack48 x.m x.e) = signCS x.m := by
  rw [pack48, csSign_splitMantissa, csSign_eq, h.toInt_m (by decide)]
  intro hm
  rw [h0 ((ofInt_eq_zero_iff (by decide) h).1 hm)]
  rfl

/-! ## Delivery (48_float R642) -/

/-- The number that a result delivers. -/
def FloatResult.number (w : Nat) (r : FloatResult) : Unpacked := { m := r.mantissa w, e := r.exponent }

/-- The interrupt that a result requests. -/
def FloatResult.request : FloatResult → Option BitNo
  | .overflow _ => some 3
  | .underflow => some 6
  | _ => none

/-- A result that its format can hold, zero in its only form. -/
def FloatResult.Deliverable (w : Nat) (r : FloatResult) : Prop :=
  InFormat w (r.number w) ∧ ((r.number w).m = 0 → (r.number w).e = 0)

theorem FloatResult.raise_eq (r : FloatResult) (s : State) : r.raise s = { s with pi := piAfter r.request s } := by
  cases r <;> rfl

section
variable {ra : Reg} {s : State} {P : Unpacked → Option BitNo → Prop} {r : FloatResult}

theorem deliver32_eq (hr : r.Deliverable 24) : deliver32 ra r s =
    { setCS (signCS (r.number 24).m) (s.setPair ra (pack32 (r.number 24).m (r.number 24).e)) with
      pi := piAfter r.request s } := by
  rw [← csSign_pack32 hr.1 hr.2, deliver32, FloatResult.raise_eq]
  rfl

theorem deliver48_eq (hr : r.Deliverable 40) : deliver48 ra r s =
    { setCS (signCS (r.number 40).m) (s.setTriple ra (pack48 (r.number 40).m (r.number 40).e)) with
      pi := piAfter r.request s } := by
  rw [← csSign_pack48 hr.1 hr.2, deliver48, FloatResult.raise_eq]
  rfl

theorem deliver32_floatPut (hr : r.Deliverable 24) (hP : P (r.number 24) r.request) : FloatPut ra P s (deliver32 ra r s) := by
  have hpair : unpack32 ((deliver32 ra r s).pair ra) = r.number 24 := by
    rw [deliver32_eq hr]
    exact (congrArg unpack32 (State.pair_setPair s ra _)).trans (unpack32_pack32 hr.1)
  rw [FloatPut, hpair, deliver32_eq hr]
  exact ⟨⟨rfl, keepsRegs_setPair s ra _, statusRest_withCS s.sw _⟩, csOf_withCS s.sw _, _, hP, rfl⟩

theorem deliver48_floatPut3 (hr : r.Deliverable 40) (hP : P (r.number 40) r.request) :
    FloatPut3 ra P s (deliver48 ra r s) := by
  have htriple : unpack48 ((deliver48 ra r s).triple ra) = r.number 40 := by
    rw [deliver48_eq hr]
    exact (congrArg unpack48 (State.triple_setTriple s ra _)).trans (unpack48_pack48 hr.1)
  rw [FloatPut3, htriple, deliver48_eq hr]
  exact ⟨⟨rfl, keepsRegs_setTriple s ra _, statusRest_withCS s.sw _⟩, csOf_withCS s.sw _, _, hP, rfl⟩

end

/-! ## Operands that are neither zero nor normalized (48_float R641) -/

theorem floatOpen_of_dataUpdate {rs : List Reg} {s t : State} (h : DataUpdate s t)
    (hic : t.ic = s.ic) (hk : KeepsRegs rs s t) (hpi : t.pi &&& ~~~0x1A00#16 = s.pi &&& ~~~0x1A00#16) : FloatOpen rs s t := by
  refine ⟨?_, hk, h.status, hpi⟩
  have hf := h.frame
  rw [hic] at hf
  exact hf

theorem freePI_pi (s : State) : (freePI s).pi &&& ~~~0x1A00#16 = s.pi &&& ~~~0x1A00#16 := by
  have hbits : ∀ x v m : Word, (x &&& ~~~m ||| v &&& m) &&& ~~~m = x &&& ~~~m := fun x v m => by
    refine BitVec.eq_of_getLsbD_eq fun i hi => ?_
    simp only [BitVec.getLsbD_and, BitVec.getLsbD_or, BitVec.getLsbD_not]
    cases m.getLsbD i <;> simp
  exact hbits _ _ _

theorem freeReg_reg (r q : Reg) (s : State) (h : q ≠ r) : (freeReg r s).reg q = s.reg q :=
  State.reg_setReg_other (drawWord s).2 _ h

theorem freeSingle_floatOpen (ra : Reg) (s : State) : FloatOpen [ra] s (freeSingle ra s) := by
  refine floatOpen_of_dataUpdate (dataUpdate_freeSingle ra s) rfl (fun q hq => ?_) (freePI_pi _)
  exact freeReg_reg ra q s (by simpa using hq)

theorem freePair_floatOpen (ra : Reg) (s : State) : FloatOpen [ra, ra + 1] s (freePair ra s) := by
  refine floatOpen_of_dataUpdate (dataUpdate_freePair ra s) rfl (fun q hq => ?_) (freePI_pi _)
  obtain ⟨h0, h1⟩ : q ≠ ra ∧ q ≠ ra + 1 := by simpa using hq
  exact (freeReg_reg (ra + 1) q _ h1).trans (freeReg_reg ra q s h0)

theorem freeTriple_floatOpen (ra : Reg) (s : State) : FloatOpen [ra, ra + 1, ra + 2] s (freeTriple ra s) := by
  refine floatOpen_of_dataUpdate (dataUpdate_freeTriple ra s) rfl (fun q hq => ?_) (freePI_pi _)
  obtain ⟨h0, h1, h2⟩ : q ≠ ra ∧ q ≠ ra + 1 ∧ q ≠ ra + 2 := by simpa using hq
  exact (freeReg_reg (ra + 2) q _ h2).trans ((freeReg_reg (ra + 1) q _ h1).trans (freeReg_reg ra q s h0))


/-! ## Values (48_float R640) -/

/-- A fraction whose first two bits differ. -/
def UnitNormal (r : ℚ) : Prop := (1 / 2 ≤ r ∧ r < 1) ∨ (-1 ≤ r ∧ r < -1 / 2)

theorem UnitNormal.ne_zero {r : ℚ} (h : UnitNormal r) : r ≠ 0 := by
  rintro rfl
  rcases h with ⟨h1, _⟩ | ⟨_, h2⟩
  · norm_num at h1
  · norm_num at h2

/-- The value is the mantissa as a fraction, times a power of two. -/
theorem floatValue_eq {w : Nat} (hw : 0 < w) (m e : Int) :
    floatValue w { m := m, e := e } = (m : ℚ) / 2 ^ (w - 1) * 2 ^ e := by
  have hexp : (2 : ℚ) ^ ((w : Int) - 1) = 2 ^ (w - 1) := by
    rw [← zpow_natCast]
    congr 1
    omega
  rw [floatValue, zpow_sub₀ two_ne_zero, hexp]
  ring

/-- A mantissa is normalized when its fraction is. -/
theorem normalized_iff {w : Nat} (hw : 2 ≤ w) (m : Int) : Normalized w m ↔ UnitNormal ((m : ℚ) / 2 ^ (w - 1)) := by
  obtain ⟨n, rfl⟩ := Nat.exists_eq_add_of_le' hw
  have hpow : (0 : ℚ) < 2 ^ (n + 1) := by positivity
  have hhalf : (2 : ℚ) ^ (n + 1) = 2 * 2 ^ n := pow_succ' 2 n
  rw [UnitNormal, Normalized, Nat.add_sub_cancel, show n + 2 - 1 = n + 1 from rfl, le_div_iff₀ hpow, div_lt_iff₀ hpow,
    le_div_iff₀ hpow, div_lt_iff₀ hpow, show (1 / 2 : ℚ) * 2 ^ (n + 1) = 2 ^ n by rw [hhalf]; ring,
    show (-1 / 2 : ℚ) * 2 ^ (n + 1) = -2 ^ n by rw [hhalf]; ring, one_mul, neg_one_mul]
  norm_cast

/-- Underflow is a matter of the normalized exponent. -/
theorem underflows_iff {r : ℚ} (hr : UnitNormal r) (e : Int) : Underflows (r * 2 ^ e) ↔ e < -128 := by
  have hp : (0 : ℚ) < 2 ^ e := by positivity
  constructor
  · rintro ⟨_, hlow, hhigh⟩
    by_contra he
    have hle : (2 : ℚ) ^ (-128 : Int) ≤ 2 ^ e := zpow_le_zpow_right₀ one_le_two (by omega)
    have htwo : (2 : ℚ) ^ (-128 : Int) = 2 * 2 ^ (-129 : Int) := by
      rw [show (-128 : Int) = 1 + -129 by norm_num, zpow_add₀ two_ne_zero, zpow_one]
    rcases hr with ⟨h1, _⟩ | ⟨_, h2⟩ <;> nlinarith
  · intro he
    have hle : (2 : ℚ) ^ e ≤ 2 ^ (-129 : Int) := zpow_le_zpow_right₀ one_le_two (by omega)
    refine ⟨mul_ne_zero hr.ne_zero hp.ne', ?_, ?_⟩ <;> rcases hr with ⟨h1, h2⟩ | ⟨h1, h2⟩ <;> nlinarith

theorem floatValue_zero (w : Nat) (e : Int) : floatValue w { m := 0, e := e } = 0 := by simp [floatValue]

theorem floatValue_ne_zero {w : Nat} {m : Int} (hm : m ≠ 0) (e : Int) : floatValue w { m := m, e := e } ≠ 0 :=
  mul_ne_zero (Int.cast_ne_zero.2 hm) (by positivity)

/-- A shift of the mantissa against the exponent keeps the value. -/
theorem floatValue_shift (w : Nat) (m e : Int) (j : Nat) :
    floatValue w { m := m * 2 ^ j, e := e - j } = floatValue w { m := m, e := e } := by
  have hexp : (2 : ℚ) ^ j * 2 ^ (e - j - ((w : Int) - 1)) = 2 ^ (e - ((w : Int) - 1)) := by
    rw [← zpow_natCast, ← zpow_add₀ two_ne_zero]
    congr 1
    omega
  rw [floatValue, floatValue, ← hexp]
  push_cast
  ring

/-! ## Normalizing (48_float R642) -/

/-- A mantissa that fits in `w` bits. -/
def FitsMantissa (w : Nat) (m : Int) : Prop := -(2 : Int) ^ (w - 1) ≤ m ∧ m < (2 : Int) ^ (w - 1)

theorem two_pow_pred {w : Nat} (hw : 2 ≤ w) : (2 : Int) ^ (w - 1) = 2 * 2 ^ (w - 2) ∧ 0 < (2 : Int) ^ (w - 2) := by
  obtain ⟨n, rfl⟩ := Nat.exists_eq_add_of_le' hw
  exact ⟨pow_succ' 2 n, by positivity⟩

theorem Normalized.fits {w : Nat} (hw : 2 ≤ w) {m : Int} (h : Normalized w m) : FitsMantissa w m := by
  obtain ⟨hpow, hpos⟩ := two_pow_pred hw
  unfold Normalized at h
  unfold FitsMantissa
  omega

theorem Normalized.ne_zero {w : Nat} (hw : 2 ≤ w) {m : Int} (h : Normalized w m) : m ≠ 0 := by
  obtain ⟨hpow, hpos⟩ := two_pow_pred hw
  unfold Normalized at h
  omega

/-- A mantissa that fits and is not normalized still fits after one shift. -/
theorem FitsMantissa.double {w : Nat} (hw : 2 ≤ w) {m : Int} (h : FitsMantissa w m) (hn : ¬Normalized w m) :
    FitsMantissa w (2 * m) := by
  obtain ⟨hpow, hpos⟩ := two_pow_pred hw
  unfold Normalized at hn
  unfold FitsMantissa at h ⊢
  omega

/-- Shifting k times is enough for a mantissa that `k` shifts bring beyond half the range. -/
theorem normalize_spec {w : Nat} (hw : 2 ≤ w) : ∀ (k : Nat) {m : Int} (e : Int), m ≠ 0 → FitsMantissa w m →
    (2 : Int) ^ (w - 2) < |m| * 2 ^ k → ∃ j : Nat, normalize w k m e = (m * 2 ^ j, e - j) ∧ Normalized w (m * 2 ^ j)
  | 0, m, e, _, hf, hk => by
    refine ⟨0, by simp [normalize], ?_⟩
    obtain ⟨hpow, hpos⟩ := two_pow_pred hw
    unfold FitsMantissa at hf
    unfold Normalized
    rw [pow_zero, mul_one] at hk ⊢
    rcases abs_cases m with ⟨ha, _⟩ | ⟨ha, _⟩ <;> omega
  | k + 1, m, e, hm, hf, hk => by
    by_cases hn : Normalized w m
    · refine ⟨0, ?_, by simpa using hn⟩
      rw [normalize, if_pos (.inr ((normalizedMantissa_iff w m).2 hn))]
      simp
    · have hk' : (2 : Int) ^ (w - 2) < |2 * m| * 2 ^ k := by
        rw [abs_mul, abs_two]
        calc (2 : Int) ^ (w - 2) < |m| * 2 ^ (k + 1) := hk
          _ = 2 * |m| * 2 ^ k := by ring
      obtain ⟨j, hj, hjn⟩ := normalize_spec hw k (e - 1) (mul_ne_zero two_ne_zero hm) (hf.double hw hn) hk'
      have hmul : 2 * m * 2 ^ j = m * 2 ^ (j + 1) := by ring
      refine ⟨j + 1, ?_, hmul ▸ hjn⟩
      rw [normalize, if_neg (not_or.2 ⟨hm, fun h => hn ((normalizedMantissa_iff w m).1 h)⟩), hj, hmul]
      push_cast
      ring_nf

/-- The width itself is always enough. -/
theorem normalize_width {w : Nat} (hw : 2 ≤ w) {m : Int} (e : Int) (hm : m ≠ 0) (hf : FitsMantissa w m) {k : Nat} (hk : w ≤ k) :
    ∃ j : Nat, normalize w k m e = (m * 2 ^ j, e - j) ∧ Normalized w (m * 2 ^ j) := by
  refine normalize_spec hw k e hm hf ?_
  have h1 : (1 : Int) ≤ |m| := Int.one_le_abs hm
  have h2 : (2 : Int) ^ (w - 2) < 2 ^ k := pow_lt_pow_right₀ one_lt_two (by omega)
  exact h2.trans_le (le_mul_of_one_le_left (by positivity) h1)

theorem normalize_of_normalized {w : Nat} {m : Int} (h : Normalized w m) (k : Nat) (e : Int) : normalize w k m e = (m, e) := by
  cases k with
  | zero => rfl
  | succ k => rw [normalize, if_pos (.inr ((normalizedMantissa_iff w m).2 h))]

/-! ## What can be delivered (48_float R642) -/

theorem deliverable_ok {w : Nat} (hw : 2 ≤ w) {m e : Int} (h : Normalized w m) (hl : -128 ≤ e) (hu : e ≤ 127) :
    (FloatResult.ok m e).Deliverable w :=
  ⟨⟨(h.fits hw).1, (h.fits hw).2, hl, hu⟩, fun h0 => absurd h0 (h.ne_zero hw)⟩

theorem deliverable_of_zero {w : Nat} {r : FloatResult} (h : r.number w = { m := 0, e := 0 }) : r.Deliverable w := by
  rw [FloatResult.Deliverable, h]
  refine ⟨⟨?_, ?_, by decide, by decide⟩, fun _ => rfl⟩
  · exact neg_nonpos.2 (by positivity)
  · positivity

theorem deliverable_overflow {w : Nat} (hw : 2 ≤ w) (b : Bool) : (FloatResult.overflow b).Deliverable w := by
  obtain ⟨hpow, hpos⟩ := two_pow_pred hw
  have hexp : ((FloatResult.overflow b).number w).e = 127 := rfl
  refine ⟨⟨?_, ?_, hexp.ge.trans' (by decide), hexp.le⟩, ?_⟩ <;> cases b <;>
    simp only [FloatResult.number, FloatResult.mantissa, limitMantissa, if_true, Bool.false_eq_true, if_false] <;> omega

theorem floatLimit_overflow (w : Nat) {b : Bool} {p : Prop} (h : b = true ↔ p) :
    FloatLimit w p ((FloatResult.overflow b).number w) := by
  refine ⟨fun hp => ?_, fun hp => ?_, rfl⟩
  · simp [FloatResult.number, FloatResult.mantissa, limitMantissa, h.2 hp]
  · have hb : b = false := by simpa using mt h.1 hp
    simp [FloatResult.number, FloatResult.mantissa, limitMantissa, hb]

/-- The end of an algorithm that normalizes, as a value: underflow or the same number normalized. -/
theorem finishNormal_spec {w : Nat} (hw : 2 ≤ w) {m e : Int} (hf : FitsMantissa w m) (he : e ≤ 127) :
    (finishNormal w m e).Deliverable w ∧
    (Underflows (floatValue w { m := m, e := e }) →
      (finishNormal w m e).number w = { m := 0, e := 0 } ∧ (finishNormal w m e).request = some 6) ∧
    (¬Underflows (floatValue w { m := m, e := e }) → GoodFloat w ((finishNormal w m e).number w) ∧
      floatValue w ((finishNormal w m e).number w) = floatValue w { m := m, e := e } ∧
      (finishNormal w m e).request = none) := by
  by_cases hm : m = 0
  · subst hm
    have hz : finishNormal w 0 e = .zero := by simp [finishNormal]
    rw [hz, floatValue_zero]
    exact ⟨deliverable_of_zero rfl, fun h => absurd rfl h.1, fun _ => ⟨.inl ⟨rfl, rfl⟩, floatValue_zero w 0, rfl⟩⟩
  · obtain ⟨j, hj, hn⟩ := normalize_width hw e hm hf le_rfl
    have hval := floatValue_shift w m e j
    have hunder : Underflows (floatValue w { m := m, e := e }) ↔ e - j < -128 := by
      rw [← hval, floatValue_eq (by omega)]
      exact underflows_iff ((normalized_iff hw _).1 hn) _
    rw [hunder]
    by_cases hlow : e - j < -128
    · have hr : finishNormal w m e = .underflow := by simp [finishNormal, hj, hm, hlow]
      rw [hr]
      exact ⟨deliverable_of_zero rfl, fun _ => ⟨rfl, rfl⟩, fun h => absurd hlow h⟩
    · have hr : finishNormal w m e = .ok (m * 2 ^ j) (e - j) := by simp [finishNormal, hj, hm, hlow]
      rw [hr]
      exact ⟨deliverable_ok hw hn (by omega) (by omega), fun h => absurd h hlow, fun _ => ⟨.inr hn, hval, rfl⟩⟩


/-! ## The forms of a floating point instruction -/

/-- A result that can be delivered, whose number and request are as `P` says. -/
def FloatResult.Delivers (w : Nat) (r : FloatResult) (P : Unpacked → Option BitNo → Prop) : Prop :=
  r.Deliverable w ∧ P (r.number w) r.request

/-- An algorithm on two operands of width `w` that delivers what `R` says when both are good. -/
def DeliversOnGood (w : Nat) (f : Unpacked → Unpacked → FloatResult)
    (R : Unpacked → Unpacked → Unpacked → Option BitNo → Prop) : Prop :=
  ∀ {a o : Unpacked}, InFormat w a → InFormat w o → GoodFloat w a → GoodFloat w o → (f a o).Delivers w (R a o)

theorem validOperands_iff (w : Nat) (a o : Unpacked) :
    (validOperand w a && validOperand w o) = true ↔ GoodFloat w a ∧ GoodFloat w o := by
  rw [Bool.and_eq_true, validOperand_iff, validOperand_iff]

section
variable {f : Unpacked → Unpacked → FloatResult} {R : Unpacked → Unpacked → Unpacked → Option BitNo → Prop}

theorem floatOp32_floatOp (hf : DeliversOnGood 24 f R) (ra : Reg) (d : DWord) (s : State) :
    FloatOp R ra d s (floatOp32 f ra d s) := by
  constructor
  · intro hgood
    obtain ⟨hr, hR⟩ := hf (unpack32_inFormat _) (unpack32_inFormat _) hgood.1 hgood.2
    rw [floatOp32, if_pos ((validOperands_iff _ _ _).2 hgood)]
    exact deliver32_floatPut hr hR
  · intro hbad
    rw [floatOp32, if_neg fun h => hbad ((validOperands_iff _ _ _).1 h)]
    exact freePair_floatOpen ra s

theorem floatOp48_floatOp3 (hf : DeliversOnGood 40 f R) (ra : Reg) (d : TWord) (s : State) :
    FloatOp3 R ra d s (floatOp48 f ra d s) := by
  constructor
  · intro hgood
    obtain ⟨hr, hR⟩ := hf (unpack48_inFormat _) (unpack48_inFormat _) hgood.1 hgood.2
    rw [floatOp48, if_pos ((validOperands_iff _ _ _).2 hgood)]
    exact deliver48_floatPut3 hr hR
  · intro hbad
    rw [floatOp48, if_neg fun h => hbad ((validOperands_iff _ _ _).1 h)]
    exact freeTriple_floatOpen ra s

end

section
variable {g : Reg → DWord → State → State} {P : Reg → DWord → State → State → Prop}

theorem regForm2_of_op {r : Reg → Reg → Instr} (hg : ∀ ra d s, P ra d s (g ra d s))
    (hexec : ∀ s ra rb, exec (r ra rb) s = .next (g ra (s.pair rb) s)) : RegForm2 r P :=
  fun s ra rb => ⟨_, hexec s ra rb, hg ra _ s⟩

theorem baseForms2_of_op {b : Reg → Byte → Instr} {bx : Reg → Reg → Instr} {acc : Reg} (hg : ∀ ra d s, P ra d s (g ra d s))
    (hb : ∀ s br dspl, exec (b br dspl) s = withDouble (daBase br dspl s) s fun d s => .next (g acc d s))
    (hbx : ∀ s br rx, exec (bx br rx) s = withDouble (daBaseIndexed br rx s) s fun d s => .next (g acc d s)) :
    BaseForms2 b bx acc P :=
  ⟨fun s br dspl => hb s br dspl ▸ withDouble_withDoubleAt (fun u d => hg acc d u) _ s,
    fun s br rx => hbx s br rx ▸ withDouble_withDoubleAt (fun u d => hg acc d u) _ s⟩

theorem memForm2_of_op {m : Reg → Reg → Word → Instr} (hg : ∀ ra d s, P ra d s (g ra d s))
    (hexec : ∀ s ra rx addr, exec (m ra rx addr) s = withDouble (daLong rx addr s) s fun d s => .next (g ra d s)) :
    MemForm2 m P :=
  fun s ra rx addr => hexec s ra rx addr ▸ withDouble_withDoubleAt (fun u d => hg ra d u) _ s

end

section
variable {g : Reg → TWord → State → State} {P : Reg → TWord → State → State → Prop}

theorem regForm3_of_op {r : Reg → Reg → Instr} (hg : ∀ ra d s, P ra d s (g ra d s))
    (hexec : ∀ s ra rb, exec (r ra rb) s = .next (g ra (s.triple rb) s)) : RegForm3 r P :=
  fun s ra rb => ⟨_, hexec s ra rb, hg ra _ s⟩

theorem memForm3_of_op {m : Reg → Reg → Word → Instr} (hg : ∀ ra d s, P ra d s (g ra d s))
    (hexec : ∀ s ra rx addr, exec (m ra rx addr) s = withTriple (daLong rx addr s) s fun d s => .next (g ra d s)) :
    MemForm3 m P :=
  fun s ra rx addr d u hload => by
    rw [hexec, withTriple_of_load3 _ hload]
    exact ⟨_, rfl, hg ra d u⟩

end

/-! ## Comparison (48_float R676 to R682) -/

/-- The integers compared are the values times one power of two. -/
theorem scaledMantissa_eq (w : Nat) {x : Unpacked} (hx : -128 ≤ x.e) :
    ((x.m * (2 : Int) ^ (x.e + 128).toNat : Int) : ℚ) = floatValue w x * 2 ^ ((w : Int) - 1 + 128) := by
  have hexp : ((2 : ℚ) ^ (x.e + 128).toNat) = 2 ^ (x.e - ((w : Int) - 1)) * 2 ^ ((w : Int) - 1 + 128) := by
    rw [← zpow_natCast, ← zpow_add₀ two_ne_zero]
    congr 1
    omega
  rw [floatValue, mul_assoc, ← hexp]
  push_cast
  rfl

theorem scaledMantissa_lt_iff {w : Nat} {a o : Unpacked} (ha : InFormat w a) (ho : InFormat w o) :
    a.m * (2 : Int) ^ (a.e + 128).toNat < o.m * (2 : Int) ^ (o.e + 128).toNat ↔ floatValue w a < floatValue w o := by
  rw [← Int.cast_lt (R := ℚ), scaledMantissa_eq w ha.e_lower, scaledMantissa_eq w ho.e_lower]
  exact mul_lt_mul_iff_left₀ (by positivity)

theorem scaledMantissa_inj {w : Nat} {a o : Unpacked} (ha : InFormat w a) (ho : InFormat w o) :
    a.m * (2 : Int) ^ (a.e + 128).toNat = o.m * (2 : Int) ^ (o.e + 128).toNat ↔ floatValue w a = floatValue w o := by
  rw [← Int.cast_inj (α := ℚ), scaledMantissa_eq w ha.e_lower, scaledMantissa_eq w ho.e_lower]
  exact mul_left_inj' (by positivity)

theorem floatCompare_of_eq {w : Nat} {a o : Unpacked} (ha : InFormat w a) (ho : InFormat w o)
    (h : floatValue w a = floatValue w o) : floatCompare a o = 0b0010#4 :=
  if_pos ((scaledMantissa_inj ha ho).2 h)

theorem floatCompare_of_lt {w : Nat} {a o : Unpacked} (ha : InFormat w a) (ho : InFormat w o)
    (h : floatValue w a < floatValue w o) : floatCompare a o = 0b0001#4 :=
  (if_neg fun heq => h.ne ((scaledMantissa_inj ha ho).1 heq)).trans (if_pos ((scaledMantissa_lt_iff ha ho).2 h))

theorem floatCompare_of_gt {w : Nat} {a o : Unpacked} (ha : InFormat w a) (ho : InFormat w o)
    (h : floatValue w o < floatValue w a) : floatCompare a o = 0b0100#4 :=
  (if_neg fun heq => h.ne' ((scaledMantissa_inj ha ho).1 heq)).trans
    (if_neg fun hlt => lt_asymm h ((scaledMantissa_lt_iff ha ho).1 hlt))

theorem setCS_floatOrder {w : Nat} {a o : Unpacked} (ha : InFormat w a) (ho : InFormat w o) (s : State) :
    FloatOrder w a o s (if validOperand w a && validOperand w o then setCS (floatCompare a o) s else freeCS s) := by
  constructor
  · intro hgood
    rw [if_pos ((validOperands_iff _ _ _).2 hgood)]
    refine ⟨fun h => ?_, fun h => ?_, fun h => ?_⟩
    · rw [floatCompare_of_eq ha ho h]
      rfl
    · rw [floatCompare_of_lt ha ho h]
      rfl
    · rw [floatCompare_of_gt ha ho h]
      rfl
  · intro hbad
    rw [if_neg fun h => hbad ((validOperands_iff _ _ _).1 h)]
    exact ⟨rfl, statusRest_withCS s.sw _⟩

theorem floatCompare32_floatOrder (ra : Reg) (d : DWord) (s : State) :
    FloatOrder 24 (unpack32 (s.pair ra)) (unpack32 d) s (floatCompare32 ra d s) :=
  setCS_floatOrder (unpack32_inFormat _) (unpack32_inFormat d) s

theorem floatCompare48_floatOrder (ra : Reg) (d : TWord) (s : State) :
    FloatOrder 40 (unpack48 (s.triple ra)) (unpack48 d) s (floatCompare48 ra d s) :=
  setCS_floatOrder (unpack48_inFormat _) (unpack48_inFormat d) s

/-- Settles O49: the order of two values is that of two integers, both scaled by the least exponent. -/
theorem floatComparesOrderValues : Obligations.FloatComparesOrderValues := by
  unfold Obligations.FloatComparesOrderValues
  exact ⟨regForm2_of_op floatCompare32_floatOrder fun _ _ _ => rfl,
    baseForms2_of_op floatCompare32_floatOrder (fun _ _ _ => rfl) fun _ _ _ => rfl,
    memForm2_of_op floatCompare32_floatOrder fun _ _ _ _ => rfl,
    regForm3_of_op floatCompare48_floatOrder fun _ _ _ => rfl,
    memForm3_of_op floatCompare48_floatOrder fun _ _ _ _ => rfl⟩


/-! ## Addition and subtraction (48_float R643 to R656) -/

/-- The exponent to which both mantissas are aligned: the larger one, and that of the other operand when one is zero. -/
def alignedExponent (a o : Unpacked) : Int := if a.m = 0 then o.e else if o.m = 0 then a.e else max a.e o.e

/-- A mantissa shifted right to an exponent that is not less than its own. -/
def alignedMantissa (e : Int) (x : Unpacked) : Int := Int.fdiv x.m ((2 : Int) ^ (e - x.e).toNat)

def alignedSum (sub : Bool) (a o : Unpacked) : Int :=
  if sub then alignedMantissa (alignedExponent a o) a - alignedMantissa (alignedExponent a o) o
  else alignedMantissa (alignedExponent a o) a + alignedMantissa (alignedExponent a o) o

/-- The end of an addition: a sum that does not fit is halved, then normalized. -/
def sumResult (w : Nat) (m e : Int) : FloatResult :=
  let ovm := outsideSigned w m
  let m' := if ovm then Int.fdiv m 2 else m
  let e' := if ovm then e + 1 else e
  if 127 < e' then .overflow (decide (m' < 0)) else finishNormal w m' e'

theorem alignedMantissa_of_le {e : Int} {x : Unpacked} (h : e ≤ x.e) : alignedMantissa e x = x.m := by
  rw [alignedMantissa, Int.toNat_of_nonpos (by omega), pow_zero, Int.fdiv_one]

theorem alignedMantissa_of_zero {e : Int} {x : Unpacked} (h : x.m = 0) : alignedMantissa e x = 0 := by
  rw [alignedMantissa, h, Int.zero_fdiv]

theorem floatAddSub_exponent (a o : Unpacked) :
    (if a.m = 0 then o.e else if a.e - o.e < 0 ∧ o.m ≠ 0 then o.e else a.e) = alignedExponent a o := by
  unfold alignedExponent
  split_ifs <;> omega

theorem floatAddSub_operand (a o : Unpacked) : (if 0 < a.e - o.e ∧ a.m ≠ 0 then Int.fdiv o.m ((2 : Int) ^ (a.e - o.e).toNat)
    else o.m) = alignedMantissa (alignedExponent a o) o := by
  by_cases ho : o.m = 0
  · rw [alignedMantissa_of_zero ho, ho, Int.zero_fdiv, ite_self]
  · unfold alignedExponent
    by_cases ha : a.m = 0
    · rw [if_neg (by simp [ha]), if_pos ha, alignedMantissa_of_le le_rfl]
    · rw [if_neg ha, if_neg ho]
      by_cases hn : 0 < a.e - o.e
      · rw [if_pos ⟨hn, ha⟩, max_eq_left (by omega), alignedMantissa]
      · rw [if_neg fun h => hn h.1, max_eq_right (by omega), alignedMantissa_of_le le_rfl]

theorem floatAddSub_accumulator (a o : Unpacked) :
    (if a.e - o.e < 0 ∧ o.m ≠ 0 then Int.fdiv a.m ((2 : Int) ^ (-(a.e - o.e)).toNat) else a.m) =
    alignedMantissa (alignedExponent a o) a := by
  by_cases ha : a.m = 0
  · rw [alignedMantissa_of_zero ha, ha, Int.zero_fdiv, ite_self]
  · unfold alignedExponent
    rw [if_neg ha]
    by_cases ho : o.m = 0
    · rw [if_neg (by simp [ho]), if_pos ho, alignedMantissa_of_le le_rfl]
    · rw [if_neg ho]
      by_cases hn : a.e - o.e < 0
      · rw [if_pos ⟨hn, ho⟩, max_eq_right (by omega), alignedMantissa, neg_sub]
      · rw [if_neg fun h => hn h.1, max_eq_left (by omega), alignedMantissa_of_le le_rfl]

theorem floatAddSub_eq (w : Nat) (a o : Unpacked) (sub : Bool) :
    floatAddSub w a o sub = sumResult w (alignedSum sub a o) (alignedExponent a o) := by
  unfold floatAddSub
  dsimp only
  rw [floatAddSub_operand, floatAddSub_accumulator, floatAddSub_exponent]
  rfl

/-- A shift right keeps a mantissa within its width. -/
theorem InFormat.alignedMantissa_fits {w : Nat} {x : Unpacked} (h : InFormat w x) (e : Int) :
    FitsMantissa w (alignedMantissa e x) := by
  have hpow : (1 : Int) ≤ 2 ^ (e - x.e).toNat := one_le_pow₀ one_le_two
  have hpos : (0 : Int) < 2 ^ (w - 1) := by positivity
  rw [alignedMantissa, Int.fdiv_eq_ediv_of_nonneg _ (by omega)]
  refine ⟨Int.le_ediv_of_mul_le (by omega) ?_, Int.ediv_lt_of_lt_mul (by omega) ?_⟩
  · nlinarith [h.m_lower]
  · nlinarith [h.m_upper]

theorem alignedSum_bounds {w : Nat} {a o : Unpacked} (ha : InFormat w a) (ho : InFormat w o) (sub : Bool) :
    -(2 * (2 : Int) ^ (w - 1)) ≤ alignedSum sub a o ∧ alignedSum sub a o < 2 * (2 : Int) ^ (w - 1) := by
  obtain ⟨ha1, ha2⟩ := ha.alignedMantissa_fits (alignedExponent a o)
  obtain ⟨ho1, ho2⟩ := ho.alignedMantissa_fits (alignedExponent a o)
  unfold alignedSum
  split_ifs <;> omega

theorem alignedExponent_bounds {w : Nat} {a o : Unpacked} (ha : InFormat w a) (ho : InFormat w o) :
    -128 ≤ alignedExponent a o ∧ alignedExponent a o ≤ 127 := by
  have := ha.e_lower
  have := ha.e_upper
  have := ho.e_lower
  have := ho.e_upper
  unfold alignedExponent
  split_ifs <;> omega

theorem half_neg_iff (m : Int) : Int.fdiv m 2 < 0 ↔ m < 0 := by
  rw [Int.fdiv_eq_ediv_of_nonneg _ (by decide)]
  omega

/-- A sum of two mantissas that does not fit is normalized once it is halved. -/
theorem half_normalized {w : Nat} (hw : 2 ≤ w) {m : Int} (hl : -(2 * (2 : Int) ^ (w - 1)) ≤ m) (hu : m < 2 * (2 : Int) ^ (w - 1))
    (hm : Unrepresentable w m) : Normalized w (Int.fdiv m 2) := by
  obtain ⟨hpow, hpos⟩ := two_pow_pred hw
  rw [Int.fdiv_eq_ediv_of_nonneg _ (by decide)]
  unfold Unrepresentable at hm
  unfold Normalized
  omega

theorem sumResult_of_outside {w : Nat} {m : Int} (e : Int) (hm : Unrepresentable w m) : sumResult w m e =
    if 127 < e + 1 then .overflow (decide (Int.fdiv m 2 < 0)) else finishNormal w (Int.fdiv m 2) (e + 1) := by
  simp only [sumResult, (outsideSigned_iff m).2 hm, if_true]

theorem sumResult_of_fits {w : Nat} {m e : Int} (hm : ¬Unrepresentable w m) (he : e ≤ 127) :
    sumResult w m e = finishNormal w m e := by
  have hout : outsideSigned w m = false := by simpa using mt (outsideSigned_iff m).1 hm
  simp only [sumResult, hout, Bool.false_eq_true, if_false, if_neg (not_lt.2 he)]

theorem finishNormal_of_normalized {w : Nat} (hw : 2 ≤ w) {m e : Int} (h : Normalized w m) (he : -128 ≤ e) :
    finishNormal w m e = .ok m e := by
  simp [finishNormal, normalize_of_normalized h, h.ne_zero hw, not_lt.2 he]

/-- What a sum `m` of mantissas aligned to `e` delivers. -/
def SumDelivered (w : Nat) (m e : Int) (x : Unpacked) (p : Option BitNo) : Prop :=
  if m < -(2 : Int) ^ (w - 1) ∨ (2 : Int) ^ (w - 1) - 1 < m then
    if e = 127 then FloatLimit w (m < 0) x ∧ p = some 3 else x = { m := Int.fdiv m 2, e := e + 1 } ∧ p = none
  else if m ≠ 0 ∧ -((2 : ℚ) ^ (-129 : Int)) ≤ floatValue w { m := m, e := e } ∧
      floatValue w { m := m, e := e } < (2 : ℚ) ^ (-129 : Int) then x = { m := 0, e := 0 } ∧ p = some 6
  else GoodFloat w x ∧ floatValue w x = floatValue w { m := m, e := e } ∧ p = none

theorem floatSum_iff (sub : Bool) (w : Nat) (a o x : Unpacked) (p : Option BitNo) :
    FloatSum sub w a o x p ↔ SumDelivered w (alignedSum sub a o) (alignedExponent a o) x p := Iff.rfl

theorem underflows_floatValue_iff (w : Nat) (m e : Int) : Underflows (floatValue w { m := m, e := e }) ↔
    m ≠ 0 ∧ -((2 : ℚ) ^ (-129 : Int)) ≤ floatValue w { m := m, e := e } ∧
      floatValue w { m := m, e := e } < (2 : ℚ) ^ (-129 : Int) := by
  refine and_congr_left' ⟨?_, fun hm => floatValue_ne_zero hm e⟩
  rintro hv rfl
  exact hv (floatValue_zero w e)

theorem sumResult_delivers {w : Nat} (hw : 2 ≤ w) {m e : Int} (hml : -(2 * (2 : Int) ^ (w - 1)) ≤ m)
    (hmu : m < 2 * (2 : Int) ^ (w - 1)) (hel : -128 ≤ e) (heu : e ≤ 127) :
    (sumResult w m e).Delivers w (SumDelivered w m e) := by
  unfold FloatResult.Delivers SumDelivered
  by_cases hout : m < -(2 : Int) ^ (w - 1) ∨ (2 : Int) ^ (w - 1) - 1 < m
  · rw [sumResult_of_outside e hout, if_pos hout]
    by_cases he : e = 127
    · rw [if_pos he, if_pos (by omega)]
      exact ⟨deliverable_overflow hw _, floatLimit_overflow w (by rw [decide_eq_true_iff, half_neg_iff]), rfl⟩
    · have hnorm := half_normalized hw hml hmu hout
      rw [if_neg he, if_neg (by omega), finishNormal_of_normalized hw hnorm (by omega)]
      exact ⟨deliverable_ok hw hnorm (by omega) (by omega), rfl, rfl⟩
  · have hfits : FitsMantissa w m := by
      unfold FitsMantissa
      omega
    obtain ⟨hdel, hunder, hvalue⟩ := finishNormal_spec hw hfits heu
    rw [underflows_floatValue_iff] at hunder hvalue
    rw [sumResult_of_fits hout heu, if_neg hout]
    split_ifs with hu
    · exact ⟨hdel, hunder hu⟩
    · exact ⟨hdel, hvalue hu⟩

theorem floatAddSub_delivers {w : Nat} (hw : 2 ≤ w) (sub : Bool) :
    DeliversOnGood w (fun a o => floatAddSub w a o sub) (FloatSum sub w) := by
  intro a o ha ho _ _
  obtain ⟨hml, hmu⟩ := alignedSum_bounds ha ho sub
  obtain ⟨hel, heu⟩ := alignedExponent_bounds ha ho
  dsimp only
  rw [floatAddSub_eq]
  obtain ⟨hdel, hsum⟩ := sumResult_delivers hw hml hmu hel heu
  exact ⟨hdel, (floatSum_iff sub w a o _ _).2 hsum⟩

/-- Settles O46: the model's sum is the aligned sum of the specification, halved or normalized. -/
theorem floatSumsAreAlignedAndNormalized : Obligations.FloatSumsAreAlignedAndNormalized := by
  unfold Obligations.FloatSumsAreAlignedAndNormalized
  have hadd := floatOp32_floatOp (floatAddSub_delivers (w := 24) (by decide) false)
  have hadd3 := floatOp48_floatOp3 (floatAddSub_delivers (w := 40) (by decide) false)
  have hsub := floatOp32_floatOp (floatAddSub_delivers (w := 24) (by decide) true)
  have hsub3 := floatOp48_floatOp3 (floatAddSub_delivers (w := 40) (by decide) true)
  exact ⟨⟨regForm2_of_op hadd fun _ _ _ => rfl, baseForms2_of_op hadd (fun _ _ _ => rfl) fun _ _ _ => rfl,
      memForm2_of_op hadd fun _ _ _ _ => rfl, regForm3_of_op hadd3 fun _ _ _ => rfl,
      memForm3_of_op hadd3 fun _ _ _ _ => rfl⟩,
    regForm2_of_op hsub fun _ _ _ => rfl, baseForms2_of_op hsub (fun _ _ _ => rfl) fun _ _ _ => rfl,
    memForm2_of_op hsub fun _ _ _ _ => rfl, regForm3_of_op hsub3 fun _ _ _ => rfl,
    memForm3_of_op hsub3 fun _ _ _ _ => rfl⟩


/-! ## Truncation of an exact fraction (48_float R658, R665) -/

/-- Cutting a normalized fraction to the width of the mantissa leaves it normalized. -/
theorem normalized_floor {w : Nat} (hw : 2 ≤ w) {r : ℚ} (hr : UnitNormal r) : Normalized w ⌊r * 2 ^ (w - 1)⌋ := by
  obtain ⟨n, rfl⟩ := Nat.exists_eq_add_of_le' hw
  have hpow : (0 : ℚ) < 2 ^ n := by positivity
  have hhalf : (2 : ℚ) ^ (n + 1) = 2 * 2 ^ n := pow_succ' 2 n
  rw [Normalized, show n + 2 - 1 = n + 1 from rfl, Nat.add_sub_cancel]
  rcases hr with ⟨h1, h2⟩ | ⟨h1, h2⟩
  · refine .inl ⟨Int.le_floor.2 ?_, Int.floor_lt.2 ?_⟩ <;> push_cast <;> nlinarith
  · refine .inr ⟨Int.le_floor.2 ?_, Int.floor_lt.2 ?_⟩ <;> push_cast <;> nlinarith

/-- The truncated fraction is the number next to the value from below. -/
theorem floatTruncated_floor {w : Nat} (hw : 2 ≤ w) {r : ℚ} (hr : UnitNormal r) (e : Int) :
    FloatTruncated w (r * 2 ^ e) { m := ⌊r * 2 ^ (w - 1)⌋, e := e } := by
  have hnorm := normalized_floor hw hr
  have hunit : (2 : ℚ) ^ (e - ((w : Int) - 1)) = 2 ^ e / 2 ^ (w - 1) := by
    have hexp : (2 : ℚ) ^ ((w : Int) - 1) = 2 ^ (w - 1) := by
      rw [← zpow_natCast]
      congr 1
      omega
    rw [zpow_sub₀ two_ne_zero, hexp]
  have hpos : (0 : ℚ) < 2 ^ e / 2 ^ (w - 1) := by positivity
  have hvalue : r * 2 ^ e = r * 2 ^ (w - 1) * (2 ^ e / 2 ^ (w - 1)) := by field_simp
  refine ⟨.inr hnorm, fun h0 => absurd h0 (hnorm.ne_zero hw), ?_, ?_⟩
  · rw [floatValue, hunit, hvalue]
    exact mul_le_mul_of_nonneg_right (Int.floor_le _) hpos.le
  · rw [floatValue, hunit, hvalue, ← add_one_mul]
    exact mul_lt_mul_of_pos_right (Int.lt_floor_add_one _) hpos

/-- What an exact product or quotient `v` that does not overflow delivers. -/
def TruncatesTo (w : Nat) (v : ℚ) (x : Unpacked) (p : Option BitNo) : Prop :=
  (Underflows v → x = { m := 0, e := 0 } ∧ p = some 6) ∧ (¬Underflows v → FloatTruncated w v x ∧ p = none)

/-- The fraction cut to the width of the mantissa, or underflow. -/
def truncatedResult (w : Nat) (r : ℚ) (e : Int) : FloatResult :=
  if e < -128 then .underflow else .ok ⌊r * 2 ^ (w - 1)⌋ e

theorem truncatedResult_delivers {w : Nat} (hw : 2 ≤ w) {r : ℚ} (hr : UnitNormal r) {e : Int} (he : e ≤ 127) :
    (truncatedResult w r e).Delivers w (TruncatesTo w (r * 2 ^ e)) := by
  unfold FloatResult.Delivers TruncatesTo truncatedResult
  rw [underflows_iff hr]
  by_cases hlow : e < -128
  · rw [if_pos hlow]
    exact ⟨deliverable_of_zero rfl, fun _ => ⟨rfl, rfl⟩, fun h => absurd hlow h⟩
  · rw [if_neg hlow]
    exact ⟨deliverable_ok hw (normalized_floor hw hr) (by omega) he, fun h => absurd h hlow,
      fun _ => ⟨floatTruncated_floor hw hr e, rfl⟩⟩

theorem zero_delivers (w : Nat) : FloatResult.zero.Delivers w (TruncatesTo w 0) := by
  refine ⟨deliverable_of_zero rfl, fun h => absurd rfl h.1, fun _ => ⟨⟨.inl ⟨rfl, rfl⟩, fun _ => rfl, ?_, ?_⟩, rfl⟩⟩
  · exact (floatValue_zero w 0).le
  · change (0 : ℚ) < floatValue w { m := 0, e := 0 } + _
    rw [floatValue_zero, zero_add]
    positivity

theorem underflow_delivers {w : Nat} {P : Unpacked → Option BitNo → Prop} (h : P { m := 0, e := 0 } (some 6)) :
    FloatResult.underflow.Delivers w P := ⟨deliverable_of_zero rfl, h⟩

theorem overflow_delivers {w : Nat} (hw : 2 ≤ w) {b : Bool} {p : Prop} (h : b = true ↔ p) :
    (FloatResult.overflow b).Delivers w fun x q => FloatLimit w p x ∧ q = some 3 :=
  ⟨deliverable_overflow hw b, floatLimit_overflow w h, rfl⟩

/-- The sign of an overflow is negative when just one operand is. -/
theorem bne_neg_iff (m n : Int) :
    (decide (m < 0) != decide (n < 0)) = true ↔ (m < 0 ∧ ¬n < 0) ∨ (¬m < 0 ∧ n < 0) := by
  by_cases hm : m < 0 <;> by_cases hn : n < 0 <;> simp [hm, hn]

theorem fdiv_eq_floor (p : Int) {d : Int} (hd : 0 ≤ d) : Int.fdiv p d = ⌊(p : ℚ) / d⌋ := by
  rw [Int.floor_div_cast_of_nonneg hd, Int.floor_intCast, Int.fdiv_eq_ediv_of_nonneg p hd]

/-! ## Multiplication (48_float R658 to R664) -/

/-- The double-length product is normalized as a mantissa of its own width. -/
theorem normalizeProduct_eq_normalize {w : Nat} (hw : 2 ≤ w) : ∀ (k : Nat) {p : Int} (n : Int), p ≠ 0 →
    FitsMantissa (2 * w - 1) p → normalizeProduct w k p n = normalize (2 * w - 1) k p n
  | 0, _, _, _, _ => rfl
  | k + 1, p, n, hp, hf => by
    have hw' : 2 ≤ 2 * w - 1 := by omega
    have hiff : (-(2 : Int) ^ (2 * w - 3) ≤ p ∧ p < (2 : Int) ^ (2 * w - 3)) ↔ ¬Normalized (2 * w - 1) p := by
      unfold FitsMantissa at hf
      rw [Normalized, show 2 * w - 1 - 2 = 2 * w - 3 by omega]
      omega
    rw [normalizeProduct, normalize]
    by_cases hn : Normalized (2 * w - 1) p
    · rw [if_neg fun h => hiff.1 h hn, if_pos (.inr ((normalizedMantissa_iff _ p).2 hn))]
    · rw [if_pos (hiff.2 hn), if_neg (not_or.2 ⟨hp, fun h => hn ((normalizedMantissa_iff _ p).1 h)⟩),
        normalizeProduct_eq_normalize hw k (n - 1) (mul_ne_zero two_ne_zero hp) (hf.double hw' hn)]

/-- The end of a multiplication: the product is normalized and cut to the upper half. -/
def productResult (w : Nat) (p n : Int) : FloatResult :=
  let (p', n'') := normalizeProduct w (2 * w) p n
  if n'' < -128 then .underflow else .ok (Int.fdiv p' ((2 : Int) ^ (w - 1))) n''

theorem productResult_delivers {w : Nat} (hw : 2 ≤ w) {p n : Int} (hp : p ≠ 0) (hf : FitsMantissa (2 * w - 1) p)
    (hn : n ≤ 127) : (productResult w p n).Delivers w (TruncatesTo w (floatValue (2 * w - 1) { m := p, e := n })) := by
  have hw' : 2 ≤ 2 * w - 1 := by omega
  obtain ⟨j, hj, hnorm⟩ := normalize_width hw' n hp hf (k := 2 * w) (by omega)
  have hcut : Int.fdiv (p * 2 ^ j) (2 ^ (w - 1)) = ⌊((p * 2 ^ j : Int) : ℚ) / 2 ^ (2 * w - 1 - 1) * 2 ^ (w - 1)⌋ := by
    rw [fdiv_eq_floor _ (by positivity), show 2 * w - 1 - 1 = (w - 1) + (w - 1) by omega, pow_add, ← div_div,
      div_mul_cancel₀ _ (by positivity)]
    push_cast
    rfl
  have hresult : productResult w p n =
      truncatedResult w (((p * 2 ^ j : Int) : ℚ) / 2 ^ (2 * w - 1 - 1)) (n - j) := by
    rw [productResult, normalizeProduct_eq_normalize hw _ n hp hf, hj, truncatedResult, ← hcut]
  rw [hresult, ← floatValue_shift _ p n j, floatValue_eq (by omega)]
  exact truncatedResult_delivers hw ((normalized_iff hw' _).1 hnorm) (by omega)

theorem floatValue_mul {w : Nat} (hw : 2 ≤ w) (a o : Unpacked) :
    floatValue w a * floatValue w o = floatValue (2 * w - 1) { m := a.m * o.m, e := a.e + o.e } := by
  have hexp : (2 : ℚ) ^ (a.e + o.e - (((2 * w - 1 : Nat) : Int) - 1)) =
      2 ^ (a.e - ((w : Int) - 1)) * 2 ^ (o.e - ((w : Int) - 1)) := by
    rw [← zpow_add₀ two_ne_zero]
    congr 1
    omega
  rw [floatValue, floatValue, floatValue, hexp]
  push_cast
  ring

theorem InFormat.fits {w : Nat} {x : Unpacked} (h : InFormat w x) : FitsMantissa w x.m := ⟨h.m_lower, h.m_upper⟩

/-- The product of two mantissas fits in double length, but for the product of the two most negative ones. -/
theorem mul_mantissas {w : Nat} (hw : 2 ≤ w) {m n : Int} (hm : FitsMantissa w m) (hn : FitsMantissa w n) :
    (m * n = (2 : Int) ^ (2 * w - 2) ↔ m = -(2 : Int) ^ (w - 1) ∧ n = -(2 : Int) ^ (w - 1)) ∧
    -(2 : Int) ^ (2 * w - 2) ≤ m * n ∧ m * n ≤ (2 : Int) ^ (2 * w - 2) := by
  obtain ⟨hm1, hm2⟩ := hm
  obtain ⟨hn1, hn2⟩ := hn
  rw [show 2 * w - 2 = (w - 1) + (w - 1) by omega, pow_add]
  have hpos : (0 : Int) < 2 ^ (w - 1) := by positivity
  generalize (2 : Int) ^ (w - 1) = b at *
  refine ⟨⟨fun h => ?_, ?_⟩, ?_, ?_⟩
  · have hneg : m < 0 := by
      by_contra hm0
      nlinarith
    constructor <;> nlinarith
  · rintro ⟨rfl, rfl⟩
    exact neg_mul_neg b b
  · nlinarith
  · nlinarith

theorem floatValue_one {w : Nat} (hw : 2 ≤ w) (n : Int) :
    floatValue (2 * w - 1) { m := (2 : Int) ^ (2 * w - 2), e := n } =
    floatValue (2 * w - 1) { m := (2 : Int) ^ (2 * w - 3), e := n + 1 } := by
  rw [← floatValue_shift _ _ (n + 1) 1, ← pow_add, show 2 * w - 3 + 1 = 2 * w - 2 by omega]
  push_cast
  rw [add_sub_cancel_right]

section
variable {w : Nat} {a o : Unpacked}

theorem floatMul_of_large (h : 127 < a.e + o.e) : floatMul w a o = .overflow (decide (a.m < 0) != decide (o.m < 0)) :=
  if_pos h

theorem floatMul_of_small (h : a.e + o.e < -128) : floatMul w a o = .underflow :=
  (if_neg (by omega)).trans (if_pos h)

theorem floatMul_of_one (hl : -128 ≤ a.e + o.e) (hu : a.e + o.e ≤ 127) (h : a.m * o.m = (2 : Int) ^ (2 * w - 2)) :
    floatMul w a o = if 127 < a.e + o.e + 1 then .overflow false
      else productResult w ((2 : Int) ^ (2 * w - 3)) (a.e + o.e + 1) := by
  have hpos : (0 : Int) < 2 ^ (2 * w - 3) := by positivity
  unfold floatMul
  simp only [if_neg (not_lt.2 hu), if_neg (not_lt.2 hl), h, decide_true, if_true, hpos.ne', if_false,
    decide_eq_false hpos.not_gt]
  rfl

theorem floatMul_of_other (hl : -128 ≤ a.e + o.e) (hu : a.e + o.e ≤ 127) (h : a.m * o.m ≠ (2 : Int) ^ (2 * w - 2)) :
    floatMul w a o = if a.m * o.m = 0 then .zero else productResult w (a.m * o.m) (a.e + o.e) := by
  unfold floatMul
  simp only [if_neg (not_lt.2 hu), if_neg (not_lt.2 hl), h, decide_false, Bool.false_eq_true, if_false]
  rfl

/-- The product when its exponent is in range: exact, and truncated at the end. -/
theorem floatMul_truncates (hw : 2 ≤ w) (ha : InFormat w a) (ho : InFormat w o) (hl : -128 ≤ a.e + o.e) (hu : a.e + o.e ≤ 127)
    (hlimit : ¬(a.e + o.e = 127 ∧ a.m = -(2 : Int) ^ (w - 1) ∧ o.m = -(2 : Int) ^ (w - 1))) :
    (floatMul w a o).Delivers w (TruncatesTo w (floatValue w a * floatValue w o)) := by
  obtain ⟨hone, hpl, hpu⟩ := mul_mantissas hw ha.fits ho.fits
  rw [floatValue_mul hw]
  by_cases h1 : a.m * o.m = (2 : Int) ^ (2 * w - 2)
  · have hpow : (2 : Int) ^ (2 * w - 2) = 2 * 2 ^ (2 * w - 3) := by rw [← pow_succ']; congr 1; omega
    have hpos : (0 : Int) < 2 ^ (2 * w - 3) := by positivity
    have he : a.e + o.e ≠ 127 := fun he => hlimit ⟨he, hone.1 h1⟩
    rw [floatMul_of_one hl hu h1, if_neg (by omega), h1, floatValue_one hw]
    refine productResult_delivers hw hpos.ne' ?_ (by omega)
    rw [FitsMantissa, show 2 * w - 1 - 1 = 2 * w - 2 by omega]
    omega
  · rw [floatMul_of_other hl hu h1]
    by_cases h0 : a.m * o.m = 0
    · rw [if_pos h0, h0, floatValue_zero]
      exact zero_delivers w
    · rw [if_neg h0]
      refine productResult_delivers hw h0 ?_ hu
      rw [FitsMantissa, show 2 * w - 1 - 1 = 2 * w - 2 by omega]
      omega

/-- With the exponent in range, only the value decides about underflow. -/
theorem delivers_of_truncates {r : FloatResult} {v : ℚ} {n : Int} (hn : -128 ≤ n) (h : r.Delivers w (TruncatesTo w v)) :
    r.Delivers w fun x p => (n < -128 ∨ Underflows v → x = { m := 0, e := 0 } ∧ p = some 6) ∧
      (¬(n < -128 ∨ Underflows v) → FloatTruncated w v x ∧ p = none) := by
  have hor : n < -128 ∨ Underflows v ↔ Underflows v := or_iff_right (not_lt.2 hn)
  simp only [hor]
  exact h

theorem floatMul_limit (hw : 2 ≤ w) (ha : InFormat w a) (ho : InFormat w o)
    (h : 127 < a.e + o.e ∨ (a.e + o.e = 127 ∧ a.m = -(2 : Int) ^ (w - 1) ∧ o.m = -(2 : Int) ^ (w - 1))) :
    (floatMul w a o).Delivers w fun x p =>
      FloatLimit w ((a.m < 0 ∧ ¬o.m < 0) ∨ (¬a.m < 0 ∧ o.m < 0)) x ∧ p = some 3 := by
  by_cases hlarge : 127 < a.e + o.e
  · rw [floatMul_of_large hlarge]
    exact overflow_delivers hw (bne_neg_iff _ _)
  · obtain ⟨he, hmins⟩ := h.resolve_left hlarge
    have hneg : -(2 : Int) ^ (w - 1) < 0 := neg_lt_zero.2 (by positivity)
    have hone := (mul_mantissas hw ha.fits ho.fits).1.2 hmins
    rw [floatMul_of_one (by omega) (by omega) hone, if_pos (by omega)]
    refine overflow_delivers hw ?_
    rw [hmins.1, hmins.2]
    simp only [hneg, Bool.false_eq_true, not_true, and_false, false_and, or_self]

end

theorem floatMul_delivers {w : Nat} (hw : 2 ≤ w) : DeliversOnGood w (floatMul w) (FloatProduct w) := by
  intro a o ha ho _ _
  unfold FloatProduct
  by_cases hover : 127 < a.e + o.e ∨ (a.e + o.e = 127 ∧ a.m = -(2 : Int) ^ (w - 1) ∧ o.m = -(2 : Int) ^ (w - 1))
  · simp only [if_pos hover]
    exact floatMul_limit hw ha ho hover
  · obtain ⟨hlarge, hlimit⟩ := not_or.1 hover
    simp only [if_neg hover]
    by_cases hsmall : a.e + o.e < -128
    · rw [floatMul_of_small hsmall]
      exact underflow_delivers ⟨fun _ => ⟨rfl, rfl⟩, fun h => absurd (.inl hsmall) h⟩
    · exact delivers_of_truncates (not_lt.1 hsmall) (floatMul_truncates hw ha ho (by omega) (by omega) hlimit)

/-- Settles O47: the product of the mantissas is exact, so its truncation is the floor of the value's fraction. -/
theorem floatProductsAreTruncated : Obligations.FloatProductsAreTruncated := by
  unfold Obligations.FloatProductsAreTruncated
  have hmul := floatOp32_floatOp (floatMul_delivers (w := 24) (by decide))
  have hmul3 := floatOp48_floatOp3 (floatMul_delivers (w := 40) (by decide))
  exact ⟨regForm2_of_op hmul fun _ _ _ => rfl, baseForms2_of_op hmul (fun _ _ _ => rfl) fun _ _ _ => rfl,
    memForm2_of_op hmul fun _ _ _ _ => rfl, regForm3_of_op hmul3 fun _ _ _ => rfl, memForm3_of_op hmul3 fun _ _ _ _ => rfl⟩


/-! ## Division (48_float R665 to R671) -/

/-- The end of a division: minus one half is doubled, then the quotient is cut to the width of the mantissa. -/
def quotientResult (w : Nat) (num den n1 : Int) : FloatResult :=
  let half := decide (2 * num = -den)
  let n2 := if half then n1 - 1 else n1
  if n2 < -128 then .underflow
  else if half then .ok (-(2 : Int) ^ (w - 1)) n2
  else .ok (Int.fdiv (num * (2 : Int) ^ (w - 1)) den) n2

/-- A fraction of at least one half in magnitude is normalized, but for minus one half. -/
theorem unitNormal_div {num den : Int} (hd : 0 < den) (hl : -den ≤ num) (hu : num < den) (hhalf : den ≤ 2 * |num|)
    (hne : 2 * num ≠ -den) : UnitNormal ((num : ℚ) / den) := by
  have hd' : (0 : ℚ) < den := Int.cast_pos.2 hd
  rw [UnitNormal, le_div_iff₀ hd', div_lt_iff₀ hd', le_div_iff₀ hd', div_lt_iff₀ hd']
  rcases abs_cases num with ⟨habs, _⟩ | ⟨habs, _⟩
  · have h1 : (den : ℚ) ≤ 2 * num := by exact_mod_cast habs ▸ hhalf
    have h2 : (num : ℚ) < den := Int.cast_lt.2 hu
    exact .inl ⟨by linarith, by linarith⟩
  · have h1 : (2 * num : ℚ) < -den := by
      have : 2 * num < -den := by omega
      exact_mod_cast this
    have h2 : (-den : ℚ) ≤ num := by exact_mod_cast hl
    exact .inr ⟨by linarith, by linarith⟩

theorem quotientResult_delivers {w : Nat} (hw : 2 ≤ w) {num den n : Int} (hd : 0 < den) (hl : -den ≤ num) (hu : num < den)
    (hhalf : den ≤ 2 * |num|) (hn : n ≤ 127) :
    (quotientResult w num den n).Delivers w (TruncatesTo w ((num : ℚ) / den * 2 ^ n)) := by
  have hd' : (den : ℚ) ≠ 0 := Int.cast_ne_zero.2 hd.ne'
  by_cases hmin : 2 * num = -den
  · have hresult : quotientResult w num den n = truncatedResult w (-1) (n - 1) := by
      have hfloor : ⌊(-1 : ℚ) * 2 ^ (w - 1)⌋ = -(2 : Int) ^ (w - 1) := by
        rw [neg_one_mul, show (-2 ^ (w - 1) : ℚ) = ((-2 ^ (w - 1) : Int) : ℚ) by push_cast; rfl, Int.floor_intCast]
      simp only [quotientResult, truncatedResult, hmin, decide_true, if_true, hfloor]
    have hvalue : (num : ℚ) / den * 2 ^ n = -1 * 2 ^ (n - 1) := by
      have hnum : (2 * num : ℚ) = -den := by exact_mod_cast hmin
      rw [zpow_sub_one₀ two_ne_zero]
      field_simp
      linarith
    rw [hresult, hvalue]
    exact truncatedResult_delivers hw (.inr (by norm_num)) (by omega)
  · have hresult : quotientResult w num den n = truncatedResult w ((num : ℚ) / den) n := by
      have hcut : Int.fdiv (num * 2 ^ (w - 1)) den = ⌊(num : ℚ) / den * 2 ^ (w - 1)⌋ := by
        rw [fdiv_eq_floor _ hd.le, div_mul_eq_mul_div]
        push_cast
        rfl
      simp only [quotientResult, truncatedResult, hmin, decide_false, Bool.false_eq_true, if_false, hcut]
    rw [hresult]
    exact truncatedResult_delivers hw (unitNormal_div hd hl hu hhalf hmin) hn

/-- The dividend with the sign of the quotient, so that the divisor counts by its magnitude. -/
def quotientNumerator (a o : Unpacked) : Int := if o.m < 0 then -a.m else a.m

section
variable {w : Nat} {a o : Unpacked}

theorem natAbs_quotientNumerator : (quotientNumerator a o).natAbs = a.m.natAbs := by
  unfold quotientNumerator
  split_ifs
  · exact Int.natAbs_neg a.m
  · rfl

theorem quotientNumerator_neg_iff (ha : a.m ≠ 0) :
    quotientNumerator a o < 0 ↔ (a.m < 0 ∧ ¬o.m < 0) ∨ (¬a.m < 0 ∧ o.m < 0) := by
  unfold quotientNumerator
  split_ifs <;> omega

theorem floatDiv_of_limit (h : o.m = 0 ∨ 127 < if a.m = 0 then 0 else a.e - o.e) :
    floatDiv w a o = .overflow (decide (a.m < 0) != decide (o.m < 0)) :=
  if_pos h.symm

theorem floatDiv_of_small (ho : o.m ≠ 0) (h : (if a.m = 0 then 0 else a.e - o.e) < -128) : floatDiv w a o = .underflow :=
  (if_neg (by omega)).trans (if_pos h)

theorem floatDiv_of_zero (ha : a.m = 0) (ho : o.m ≠ 0) : floatDiv w a o = .zero := by
  unfold floatDiv
  simp [ha, ho]

theorem floatDiv_of_ne_zero (ha : a.m ≠ 0) (ho : o.m ≠ 0) (hl : -128 ≤ a.e - o.e) (hu : a.e - o.e ≤ 127) :
    floatDiv w a o =
      if o.m.natAbs ≤ a.m.natAbs then
        if 127 < a.e - o.e + 1 then .overflow (decide (quotientNumerator a o < 0))
        else quotientResult w (quotientNumerator a o) (2 * o.m.natAbs) (a.e - o.e + 1)
      else quotientResult w (quotientNumerator a o) o.m.natAbs (a.e - o.e) := by
  have hnum : quotientNumerator a o ≠ 0 := by
    unfold quotientNumerator
    split_ifs <;> omega
  have hbig : ((o.m.natAbs : Int) ≤ ((quotientNumerator a o).natAbs : Int)) ↔ o.m.natAbs ≤ a.m.natAbs := by
    rw [natAbs_quotientNumerator, Int.ofNat_le]
  have hlimit : ¬(127 < a.e - o.e ∨ o.m = 0) := by omega
  have hsmall : ¬a.e - o.e < -128 := by omega
  have hnlimit : ¬127 < a.e - o.e := by omega
  have hfold : (if o.m < 0 then -a.m else a.m) = quotientNumerator a o := rfl
  by_cases hle : o.m.natAbs ≤ a.m.natAbs
  · simp only [floatDiv, hfold, if_neg ha, if_neg hlimit, if_neg hsmall, hbig, hle, decide_true, if_true, if_neg hnum]
    rfl
  · simp only [floatDiv, hfold, if_neg ha, if_neg hlimit, if_neg hsmall, if_neg hnlimit, hbig, hle, decide_false,
      Bool.false_eq_true, if_false, if_neg hnum]
    rfl

end

/-- The quotient of the values is that of the mantissas, the divisor by its magnitude. -/
theorem floatValue_div {w : Nat} {a o : Unpacked} (ho : o.m ≠ 0) : floatValue w a / floatValue w o =
    (quotientNumerator a o : ℚ) / (o.m.natAbs : Int) * 2 ^ (a.e - o.e) := by
  have hsign : (quotientNumerator a o : ℚ) / (o.m.natAbs : Int) = a.m / o.m := by
    unfold quotientNumerator
    split_ifs with hneg
    · rw [Int.ofNat_natAbs_of_nonpos hneg.le]
      push_cast
      exact neg_div_neg_eq _ _
    · rw [Int.natAbs_of_nonneg (not_lt.1 hneg)]
  have hexp : (2 : ℚ) ^ (a.e - ((w : Int) - 1)) = 2 ^ (a.e - o.e) * 2 ^ (o.e - ((w : Int) - 1)) := by
    rw [← zpow_add₀ two_ne_zero]
    congr 1
    omega
  have ho' : (o.m : ℚ) ≠ 0 := Int.cast_ne_zero.2 ho
  rw [hsign, floatValue, floatValue, hexp]
  field_simp

/-- Doubling the divisor against the exponent keeps the quotient. -/
theorem div_mul_two_zpow (p d : ℚ) (n : Int) : p / d * 2 ^ n = p / (2 * d) * 2 ^ (n + 1) := by
  rw [zpow_add_one₀ two_ne_zero, mul_comm 2 d, ← div_div]
  ring

/-- The quotient when its exponent is in range: exact, and truncated at the end. -/
theorem floatDiv_truncates {w : Nat} (hw : 2 ≤ w) {a o : Unpacked} (ha : Normalized w a.m) (ho : Normalized w o.m)
    (hl : -128 ≤ a.e - o.e) (hu : a.e - o.e ≤ 127) (hlimit : ¬(a.e - o.e = 127 ∧ o.m.natAbs ≤ a.m.natAbs)) :
    (floatDiv w a o).Delivers w (TruncatesTo w (floatValue w a / floatValue w o)) := by
  have ho0 := ho.ne_zero hw
  obtain ⟨hpow, hpos⟩ := two_pow_pred hw
  rw [floatValue_div ho0, floatDiv_of_ne_zero (ha.ne_zero hw) ho0 hl hu]
  unfold Normalized at ha ho
  have habs : |quotientNumerator a o| = a.m.natAbs := by rw [Int.abs_eq_natAbs, natAbs_quotientNumerator]
  by_cases hle : o.m.natAbs ≤ a.m.natAbs
  · have hden : (2 : ℚ) * ((o.m.natAbs : Int) : ℚ) = ((2 * o.m.natAbs : Int) : ℚ) := by push_cast; rfl
    have hbounds : -(2 * (o.m.natAbs : Int)) ≤ quotientNumerator a o ∧ quotientNumerator a o < 2 * o.m.natAbs := by
      unfold quotientNumerator
      split_ifs <;> omega
    rw [if_pos hle, if_neg (by omega), div_mul_two_zpow, hden]
    exact quotientResult_delivers hw (by omega) hbounds.1 hbounds.2 (by omega) (by omega)
  · have hbounds : -(o.m.natAbs : Int) ≤ quotientNumerator a o ∧ quotientNumerator a o < o.m.natAbs := by
      unfold quotientNumerator
      split_ifs <;> omega
    rw [if_neg hle]
    exact quotientResult_delivers hw (by omega) hbounds.1 hbounds.2 (by omega) hu

theorem floatDiv_limit {w : Nat} (hw : 2 ≤ w) {a o : Unpacked}
    (h : o.m = 0 ∨ 127 < (if a.m = 0 then 0 else a.e - o.e) ∨
      ((if a.m = 0 then 0 else a.e - o.e) = 127 ∧ o.m.natAbs ≤ a.m.natAbs)) :
    (floatDiv w a o).Delivers w fun x p =>
      FloatLimit w ((a.m < 0 ∧ ¬o.m < 0) ∨ (¬a.m < 0 ∧ o.m < 0)) x ∧ p = some 3 := by
  by_cases hlarge : o.m = 0 ∨ 127 < if a.m = 0 then 0 else a.e - o.e
  · rw [floatDiv_of_limit hlarge]
    exact overflow_delivers hw (bne_neg_iff _ _)
  · obtain ⟨ho, hn⟩ := not_or.1 hlarge
    obtain ⟨hexp, hle⟩ := (h.resolve_left ho).resolve_left hn
    have ha : a.m ≠ 0 := by omega
    rw [if_neg ha] at hexp
    rw [floatDiv_of_ne_zero ha ho (by omega) (by omega), if_pos hle, if_pos (by omega)]
    refine overflow_delivers hw ?_
    rw [decide_eq_true_iff]
    exact quotientNumerator_neg_iff ha

theorem GoodFloat.normalized {w : Nat} {x : Unpacked} (h : GoodFloat w x) (hx : x.m ≠ 0) : Normalized w x.m :=
  h.resolve_left fun h0 => hx h0.1

theorem floatDiv_delivers {w : Nat} (hw : 2 ≤ w) : DeliversOnGood w (floatDiv w) (FloatQuotient w) := by
  intro a o _ _ ha ho
  unfold FloatQuotient
  by_cases hlimit : o.m = 0 ∨ 127 < (if a.m = 0 then 0 else a.e - o.e) ∨
      ((if a.m = 0 then 0 else a.e - o.e) = 127 ∧ o.m.natAbs ≤ a.m.natAbs)
  · simp only [if_pos hlimit]
    exact floatDiv_limit hw hlimit
  · simp only [if_neg hlimit]
    obtain ⟨ho0, hn⟩ := not_or.1 hlimit
    by_cases hsmall : (if a.m = 0 then 0 else a.e - o.e) < -128
    · rw [floatDiv_of_small ho0 hsmall]
      exact underflow_delivers ⟨fun _ => ⟨rfl, rfl⟩, fun h => absurd (.inl hsmall) h⟩
    · refine delivers_of_truncates (not_lt.1 hsmall) ?_
      by_cases ha0 : a.m = 0
      · have hvalue : floatValue w a / floatValue w o = 0 := by rw [floatValue, ha0]; simp
        rw [floatDiv_of_zero ha0 ho0, hvalue]
        exact zero_delivers w
      · rw [if_neg ha0] at hn hsmall
        exact floatDiv_truncates hw (ha.normalized ha0) (ho.normalized ho0) (not_lt.1 hsmall) (by omega) (by omega)

/-- Settles O48: the model's fraction is the quotient of the values, normalized by at most one halving and one doubling. -/
theorem floatQuotientsAreTruncated : Obligations.FloatQuotientsAreTruncated := by
  unfold Obligations.FloatQuotientsAreTruncated
  have hdiv := floatOp32_floatOp (floatDiv_delivers (w := 24) (by decide))
  have hdiv3 := floatOp48_floatOp3 (floatDiv_delivers (w := 40) (by decide))
  exact ⟨regForm2_of_op hdiv fun _ _ _ => rfl, baseForms2_of_op hdiv (fun _ _ _ => rfl) fun _ _ _ => rfl,
    memForm2_of_op hdiv fun _ _ _ _ => rfl, regForm3_of_op hdiv3 fun _ _ _ => rfl, memForm3_of_op hdiv3 fun _ _ _ _ => rfl⟩


/-! ## FABS and FNEG (48_float R650, R657) -/

theorem floatValue_neg (w : Nat) (m e : Int) : floatValue w { m := -m, e := e } = -floatValue w { m := m, e := e } := by
  rw [floatValue, floatValue]
  push_cast
  exact neg_mul _ _

theorem floatValue_abs (w : Nat) (m e : Int) : floatValue w { m := |m|, e := e } = |floatValue w { m := m, e := e }| := by
  rw [floatValue, floatValue, abs_mul, abs_of_pos (by positivity : (0 : ℚ) < 2 ^ (e - ((w : Int) - 1)))]
  push_cast
  rfl

/-- A mantissa halved against its exponent. -/
theorem floatValue_halve (w : Nat) (m e : Int) : floatValue w { m := m, e := e + 1 } = floatValue w { m := m * 2, e := e } := by
  have h := floatValue_shift w m (e + 1) 1
  rw [pow_one, Nat.cast_one, add_sub_cancel_right] at h
  exact h.symm

theorem unaryOp_put {f : Unpacked → FloatResult} {P : Unpacked → Unpacked → Option BitNo → Prop}
    (hf : ∀ {x}, InFormat 24 x → GoodFloat 24 x → (f x).Delivers 24 (P x)) (ra : Reg) (d : DWord) (s : State) :
    let t := if validOperand 24 (unpack32 d) then deliver32 ra (f (unpack32 d)) s else freePair ra s
    (GoodFloat 24 (unpack32 d) → FloatPut ra (P (unpack32 d)) s t) ∧
      (¬GoodFloat 24 (unpack32 d) → FloatOpen [ra, ra + 1] s t) := by
  constructor
  · intro hgood
    obtain ⟨hr, hP⟩ := hf (unpack32_inFormat d) hgood
    rw [if_pos ((validOperand_iff _ _).2 hgood)]
    exact deliver32_floatPut hr hP
  · intro hbad
    rw [if_neg fun h => hbad ((validOperand_iff _ _).1 h)]
    exact freePair_floatOpen ra s

/-- A normalized result whose value is `v`. -/
theorem ok_delivers {w : Nat} (hw : 2 ≤ w) {m e : Int} {v : ℚ} (h : Normalized w m) (hl : -128 ≤ e) (hu : e ≤ 127)
    (hv : floatValue w { m := m, e := e } = v) :
    (FloatResult.ok m e).Delivers w fun x p => GoodFloat w x ∧ floatValue w x = v ∧ p = none :=
  ⟨deliverable_ok hw h hl hu, .inr h, hv, rfl⟩

theorem zero_delivers_value {w : Nat} {r : FloatResult} {v : ℚ} (hr : r.number w = { m := 0, e := 0 }) (hp : r.request = none)
    (hv : v = 0) : r.Delivers w fun x p => GoodFloat w x ∧ floatValue w x = v ∧ p = none := by
  refine ⟨deliverable_of_zero hr, ?_⟩
  rw [hr, hp, hv]
  exact ⟨.inl ⟨rfl, rfl⟩, floatValue_zero w 0, rfl⟩

theorem floatAbs_delivers {x : Unpacked} (hx : InFormat 24 x) (hgood : GoodFloat 24 x) : (floatAbs x).Delivers 24 fun y p =>
    if x.m = -(2 : Int) ^ 23 ∧ x.e = 127 then FloatLimit 24 False y ∧ p = some 3
    else GoodFloat 24 y ∧ floatValue 24 y = |floatValue 24 x| ∧ p = none := by
  obtain ⟨m, e⟩ := x
  obtain ⟨_, _, hel, heu⟩ := hx
  unfold floatAbs
  dsimp only at *
  by_cases hmin : m = -(2 : Int) ^ 23
  · rw [if_pos hmin]
    by_cases he : e = 127
    · simp only [if_pos (And.intro hmin he)]
      rw [if_pos (by omega)]
      exact overflow_delivers (by decide) (by simp)
    · simp only [if_neg fun h : m = -(2 : Int) ^ 23 ∧ e = 127 => he h.2]
      rw [if_neg (by omega)]
      refine ok_delivers (by decide) (.inl (by decide)) (by omega) (by omega) ?_
      rw [← floatValue_abs, floatValue_halve, hmin]
      rfl
  · simp only [if_neg fun h : m = -(2 : Int) ^ 23 ∧ e = 127 => hmin h.1]
    have habs : (if m < 0 then -m else m) = |m| := by
      rcases abs_cases m with ⟨h, _⟩ | ⟨h, _⟩ <;> rw [h] <;> split_ifs <;> omega
    rw [if_neg hmin, habs]
    rcases hgood with ⟨h0, he0⟩ | hnorm
    · dsimp only at h0 he0
      rw [h0, he0]
      exact zero_delivers_value rfl rfl (by rw [floatValue_zero, abs_zero])
    · refine ok_delivers (by decide) ?_ hel heu (floatValue_abs 24 m e)
      unfold Normalized at hnorm ⊢
      dsimp only at hnorm
      rcases abs_cases m with ⟨h, _⟩ | ⟨h, _⟩ <;> rw [h] <;> omega

theorem floatNeg_delivers {x : Unpacked} (hx : InFormat 24 x) (hgood : GoodFloat 24 x) : (floatNeg x).Delivers 24 fun y p =>
    if x.m = -(2 : Int) ^ 23 ∧ x.e = 127 then FloatLimit 24 False y ∧ p = some 3
    else if x.m = (2 : Int) ^ 22 ∧ x.e = -128 then y = { m := 0, e := 0 } ∧ p = some 6
    else GoodFloat 24 y ∧ floatValue 24 y = -floatValue 24 x ∧ p = none := by
  obtain ⟨m, e⟩ := x
  obtain ⟨_, _, hel, heu⟩ := hx
  unfold floatNeg
  dsimp only at *
  by_cases hover : m = -(2 : Int) ^ 23 ∧ e = 127
  · simp only [if_pos hover]
    exact overflow_delivers (by decide) (by simp)
  simp only [if_neg hover]
  by_cases hunder : m = (2 : Int) ^ 22 ∧ e = -128
  · simp only [if_pos hunder]
    exact underflow_delivers ⟨rfl, rfl⟩
  simp only [if_neg hunder]
  by_cases hmin : m = -(2 : Int) ^ 23
  · rw [if_pos hmin]
    refine ok_delivers (by decide) (.inl (by decide)) (by omega) (by omega) ?_
    rw [← floatValue_neg, floatValue_halve, hmin]
    rfl
  rw [if_neg hmin]
  by_cases hhalf : m = (2 : Int) ^ 22
  · rw [if_pos hhalf]
    refine ok_delivers (by decide) (.inr (by decide)) (by omega) (by omega) ?_
    have hexp : e = e - 1 + 1 := by omega
    rw [← floatValue_neg, hhalf, hexp, floatValue_halve, ← hexp]
    rfl
  rw [if_neg hhalf]
  by_cases h0 : m = 0
  · rw [if_pos h0, h0]
    exact zero_delivers_value rfl rfl (by rw [floatValue_zero, neg_zero])
  · rw [if_neg h0]
    have hnorm : Normalized 24 m := hgood.normalized h0
    refine ok_delivers (by decide) ?_ hel heu (floatValue_neg 24 m e)
    unfold Normalized at hnorm ⊢
    omega

/-- Settles O50: only the two mantissas at the ends of the range change their exponent. -/
theorem floatMagnitudeAndNegation : Obligations.FloatMagnitudeAndNegation := by
  unfold Obligations.FloatMagnitudeAndNegation
  exact ⟨regForm2_of_op (unaryOp_put floatAbs_delivers) fun _ _ _ => rfl,
    regForm2_of_op (unaryOp_put floatNeg_delivers) fun _ _ _ => rfl⟩


/-! ## FIX and EFIX (48_float R672, R674) -/

theorem towardZero_div (m : Int) {d : Int} (hd : 0 < d) : towardZero ((m : ℚ) / d) = Int.tdiv m d := by
  have hd' : (0 : ℚ) < d := Int.cast_pos.2 hd
  unfold towardZero
  by_cases hm : 0 ≤ m
  · rw [if_pos (div_nonneg (Int.cast_nonneg hm) hd'.le), Int.floor_div_cast_of_nonneg hd.le, Int.floor_intCast,
      Int.tdiv_eq_ediv_of_nonneg hm]
  · have hneg : (m : ℚ) < 0 := Int.cast_lt_zero.2 (not_le.1 hm)
    rw [if_neg (not_le.2 (div_neg_of_neg_of_pos hneg hd')), ← neg_neg ((m : ℚ) / d), Int.ceil_neg, ← neg_div, ← Int.cast_neg,
      Int.floor_div_cast_of_nonneg hd.le, Int.floor_intCast, ← Int.tdiv_eq_ediv_of_nonneg (by omega), Int.neg_tdiv, neg_neg]

theorem towardZero_bounds {v : ℚ} {b : Int} (hb : 0 < b) (hl : -(b : ℚ) ≤ v) (hu : v < b) :
    -b ≤ towardZero v ∧ towardZero v < b := by
  unfold towardZero
  split_ifs with h
  · have h0 := Int.floor_nonneg.2 h
    exact ⟨by omega, Int.floor_lt.2 hu⟩
  · have h0 : ⌈v⌉ ≤ 0 := Int.ceil_le.2 (by push_cast; exact (not_le.1 h).le)
    have hlow : ((-b : Int) : ℚ) ≤ ⌈v⌉ := (by push_cast; exact hl : ((-b : Int) : ℚ) ≤ v).trans (Int.le_ceil v)
    exact ⟨Int.cast_le.1 hlow, by omega⟩

/-- With no more integer bits than the mantissa has, the model's shift is the value rounded toward zero. -/
theorem integerPart_eq {w : Nat} (hw : 0 < w) (m : Int) {e : Int} (he : e < (w : Int) - 1) :
    integerPart m e (w - 1) = towardZero (floatValue w { m := m, e := e }) := by
  have hvalue : floatValue w { m := m, e := e } = (m : ℚ) / ((2 ^ ((w - 1 : Nat) - e).toNat : Int) : ℚ) := by
    have hexp : e - ((w : Int) - 1) = -((((w - 1 : Nat) : Int) - e).toNat : Int) := by omega
    rw [floatValue, hexp, zpow_neg, zpow_natCast, div_eq_mul_inv]
    push_cast
    rfl
  rw [hvalue, towardZero_div _ (by positivity), integerPart, if_neg (by omega)]

theorem floatValue_bounds {w : Nat} (hw : 0 < w) {x : Unpacked} (hx : InFormat w x) {n : Nat} (he : x.e ≤ n) :
    -(((2 : Int) ^ n : Int) : ℚ) ≤ floatValue w x ∧ floatValue w x < ((2 : Int) ^ n : Int) := by
  have hp : (0 : ℚ) < 2 ^ x.e := by positivity
  have hle : (2 : ℚ) ^ x.e ≤ 2 ^ n := by
    rw [← zpow_natCast]
    exact zpow_le_zpow_right₀ one_le_two he
  have hpow : (0 : ℚ) < 2 ^ (w - 1) := by positivity
  have hl : -1 ≤ (x.m : ℚ) / 2 ^ (w - 1) := by
    rw [le_div_iff₀ hpow, neg_one_mul]
    exact_mod_cast hx.m_lower
  have hu : (x.m : ℚ) / 2 ^ (w - 1) < 1 := by
    rw [div_lt_one hpow]
    exact_mod_cast hx.m_upper
  rw [show x = { m := x.m, e := x.e } from rfl, floatValue_eq hw]
  push_cast
  constructor <;> nlinarith

/-- The integer part of a number whose exponent is at most `n` has `n + 1` bits. -/
theorem integerPart_toInt {w : Nat} (hw : 0 < w) {x : Unpacked} (hx : InFormat w x) {n : Nat} (he : x.e ≤ n) :
    (BitVec.ofInt (n + 1) (towardZero (floatValue w x))).toInt = towardZero (floatValue w x) := by
  obtain ⟨hl, hu⟩ := floatValue_bounds hw hx he
  obtain ⟨hl', hu'⟩ := towardZero_bounds (by positivity) hl hu
  exact BitVec.toInt_ofInt_eq_self n.succ_pos hl' hu'

/-! ## FLT and EFLT (48_float R673, R675) -/

theorem not_underflows_intCast (d : Int) : ¬Underflows (d : ℚ) := by
  rintro ⟨hne, hl, hu⟩
  have hsmall : (2 : ℚ) ^ (-129 : Int) < 1 := zpow_lt_one_of_neg₀ one_lt_two (by decide)
  have hl' : ((-1 : Int) : ℚ) < d := by push_cast; linarith
  have hu' : (d : ℚ) < (1 : Int) := by push_cast; linarith
  have hd : d = 0 := by
    have := Int.cast_lt.1 hl'
    have := Int.cast_lt.1 hu'
    omega
  exact hne (by rw [hd, Int.cast_zero])

/-- An integer fills the top of the mantissa; eight zero bits follow it. -/
theorem floatValue_integer (w : Nat) (d : Int) :
    floatValue w { m := d * 256, e := (w : Int) - 9 } = d := by
  have h := floatValue_shift w d ((w : Int) - 1) 8
  rw [show ((w : Int) - 1 - (8 : Nat)) = w - 9 by push_cast; ring] at h
  refine h.trans ?_
  rw [floatValue, sub_self, zpow_zero, mul_one]

theorem integerToFloat_delivers {w : Nat} (hw : 8 < w) (hw' : w ≤ 136) {d : Int} (hl : -(2 : Int) ^ (w - 9) ≤ d)
    (hu : d < (2 : Int) ^ (w - 9)) : (integerToFloat w d ((w : Int) - 9)).Delivers w fun x p =>
      GoodFloat w x ∧ floatValue w x = d ∧ p = none := by
  have hpow : (2 : Int) ^ (w - 1) = 256 * 2 ^ (w - 9) := by
    rw [show w - 1 = 8 + (w - 9) by omega, pow_add]
    rfl
  have hfits : FitsMantissa w (d * 256) := by
    unfold FitsMantissa
    omega
  obtain ⟨hdel, _, hvalue⟩ := finishNormal_spec (by omega) hfits (show (w : Int) - 9 ≤ 127 by omega)
  rw [floatValue_integer] at hvalue
  exact ⟨hdel, hvalue (not_underflows_intCast d)⟩

theorem integerToFloat24_delivers (d : Word) : (integerToFloat 24 d.toInt 15).Delivers 24 fun x p =>
    GoodFloat 24 x ∧ floatValue 24 x = d.toInt ∧ p = none :=
  integerToFloat_delivers (w := 24) (by decide) (by decide) (BitVec.le_toInt d) BitVec.toInt_lt

theorem integerToFloat40_delivers (d : DWord) : (integerToFloat 40 d.toInt 31).Delivers 40 fun x p =>
    GoodFloat 40 x ∧ floatValue 40 x = d.toInt ∧ p = none :=
  integerToFloat_delivers (w := 40) (by decide) (by decide) (BitVec.le_toInt d) BitVec.toInt_lt

/-! ## The conversions as operations on a state -/

/-- What FIX does with an operand of 32 bits. -/
def fixWord (ra : Reg) (d : DWord) (s : State) : State :=
  if validOperand 24 (unpack32 d) then
    if 15 < (unpack32 d).e then raiseInterrupt fixedOverflow s
    else putWord ra (BitVec.ofInt 16 (integerPart (unpack32 d).m (unpack32 d).e 23)) s
  else freeSingle ra s

/-- What EFIX does with an operand of 48 bits. -/
def fixPair (ra : Reg) (d : TWord) (s : State) : State :=
  if validOperand 40 (unpack48 d) then
    if 31 < (unpack48 d).e then raiseInterrupt fixedOverflow s
    else putPair ra (BitVec.ofInt 32 (integerPart (unpack48 d).m (unpack48 d).e 39)) s
  else freePair ra s

theorem exec_fix (s : State) (ra rb : Reg) : exec (.fix ra rb) s = .next (fixWord ra (s.pair rb) s) := by
  change execFix ra rb s = _
  unfold execFix fixWord
  dsimp only
  split_ifs <;> rfl

theorem exec_efix (s : State) (ra rb : Reg) : exec (.efix ra rb) s = .next (fixPair ra (s.triple rb) s) := by
  change execEfix ra rb s = _
  unfold execEfix fixPair
  dsimp only
  split_ifs <;> rfl

section
variable (ra : Reg) (s : State)

theorem fixWord_of_good {d : DWord} (hgood : GoodFloat 24 (unpack32 d)) :
    (15 < (unpack32 d).e → fixWord ra d s = { s with pi := s.pi ||| bitMask 4 }) ∧
    ((unpack32 d).e ≤ 15 →
      fixWord ra d s = putWord ra (BitVec.ofInt 16 (towardZero (floatValue 24 (unpack32 d)))) s) := by
  rw [fixWord, if_pos ((validOperand_iff _ _).2 hgood)]
  refine ⟨fun he => if_pos he, fun he => (if_neg (not_lt.2 he)).trans ?_⟩
  rw [integerPart_eq (w := 24) (by decide) _ (by omega)]

theorem fixPair_of_good {d : TWord} (hgood : GoodFloat 40 (unpack48 d)) :
    (31 < (unpack48 d).e → fixPair ra d s = { s with pi := s.pi ||| bitMask 4 }) ∧
    ((unpack48 d).e ≤ 31 →
      fixPair ra d s = putPair ra (BitVec.ofInt 32 (towardZero (floatValue 40 (unpack48 d)))) s) := by
  rw [fixPair, if_pos ((validOperand_iff _ _).2 hgood)]
  refine ⟨fun he => if_pos he, fun he => (if_neg (not_lt.2 he)).trans ?_⟩
  rw [integerPart_eq (w := 40) (by decide) _ (by omega)]

theorem fixWord_of_bad {d : DWord} (hbad : ¬GoodFloat 24 (unpack32 d)) : fixWord ra d s = freeSingle ra s :=
  if_neg (mt (validOperand_iff _ _).1 hbad)

theorem fixPair_of_bad {d : TWord} (hbad : ¬GoodFloat 40 (unpack48 d)) : fixPair ra d s = freePair ra s :=
  if_neg (mt (validOperand_iff _ _).1 hbad)

theorem fixWord_put {d : DWord} (hgood : GoodFloat 24 (unpack32 d)) (he : (unpack32 d).e ≤ 15) :
    WordPut ra (BitVec.ofInt 16 (towardZero (floatValue 24 (unpack32 d)))) s (fixWord ra d s) ∧
    ((fixWord ra d s).reg ra).toInt = towardZero (floatValue 24 (unpack32 d)) := by
  have hput := putWord_wordPut ra (BitVec.ofInt 16 (towardZero (floatValue 24 (unpack32 d)))) s
  rw [(fixWord_of_good ra s hgood).2 he]
  obtain ⟨_, hreg, _⟩ := id hput
  exact ⟨hput, (congrArg BitVec.toInt hreg).trans (integerPart_toInt (n := 15) (by decide) (unpack32_inFormat d) he)⟩

theorem fixPair_put {d : TWord} (hgood : GoodFloat 40 (unpack48 d)) (he : (unpack48 d).e ≤ 31) :
    PairPut ra (BitVec.ofInt 32 (towardZero (floatValue 40 (unpack48 d)))) s (fixPair ra d s) ∧
    ((fixPair ra d s).pair ra).toInt = towardZero (floatValue 40 (unpack48 d)) := by
  have hput := putPair_pairPut ra (BitVec.ofInt 32 (towardZero (floatValue 40 (unpack48 d)))) s
  rw [(fixPair_of_good ra s hgood).2 he]
  obtain ⟨_, hpair, _⟩ := id hput
  exact ⟨hput, (congrArg BitVec.toInt hpair).trans (integerPart_toInt (n := 31) (by decide) (unpack48_inFormat d) he)⟩

end

/-- Settles O51: FIX is the shift rounded toward zero; FLT normalizes an integer that fits the mantissa, so it is exact. -/
theorem fixAndFloatConvert : Obligations.FixAndFloatConvert := by
  unfold Obligations.FixAndFloatConvert
  refine ⟨?fix, ?efix, ?flt, ?eflt⟩
  case fix =>
    refine regForm2_of_op (fun ra d s => ⟨fun hgood => ?_, fun hbad => ?_⟩) exec_fix
    · exact ⟨(fixWord_of_good ra s hgood).1, fixWord_put ra s hgood⟩
    · exact fixWord_of_bad ra s hbad ▸ freeSingle_floatOpen ra s
  case efix =>
    refine regForm3_of_op (fun ra d s => ⟨fun hgood => ?_, fun hbad => ?_⟩) exec_efix
    · exact ⟨(fixPair_of_good ra s hgood).1, fixPair_put ra s hgood⟩
    · exact fixPair_of_bad ra s hbad ▸ freePair_floatOpen ra s
  case flt =>
    intro s ra rb
    obtain ⟨hdel, hP⟩ := integerToFloat24_delivers (s.reg rb)
    exact ⟨_, rfl, deliver32_floatPut hdel hP⟩
  case eflt =>
    intro s ra rb
    obtain ⟨hdel, hP⟩ := integerToFloat40_delivers (s.pair rb)
    exact ⟨_, rfl, deliver48_floatPut3 hdel hP⟩

end Sys2Proof.Machine

/-! # A good state stays good (10_state R147, R162; 20_memory R200, R209)

A property is followed through every instruction, the system instructions too, and through the interrupt sequence; what is
good about a state is such a property. -/

namespace Sys2Proof.Machine

/-! ## A property along the interrupt sequence (60_exceptions R772) -/

/-- What the references of the interrupt sequence keep besides: they store by any access, and load MK, SW and IC. -/
structure PreservesSequence (I : State → Prop) (Q : Out → Prop) : Prop extends Preserves I Q where
  poke : ∀ {s} (p : PAddr) (v : Word), I s → I (physWrite s p v)
  status : ∀ {s} (m w i : Word), I s → I (loadStatus m w i s)
  disable : ∀ {s}, I s → I (disableInterrupts s)
  clear : ∀ {s} (n : BitNo), I s → I (clearPending n s)
  freeze : ∀ {s} (n : BitNo), I s → I (freezeIoic n s)

namespace PreservesSequence

variable {I : State → Prop} {Q : Out → Prop} (h : PreservesSequence I Q) {s : State}
include h

theorem vectorRead (hs : I s) (a : Word) : Sound I Q Prod.snd (vectorRead a s) := by
  have h1 := h.takeTurn hs
  unfold Machine.vectorRead
  cases hr : Machine.takeTurn s with
  | error o => rwa [hr] at h1
  | ok u =>
    rw [hr] at h1
    dsimp only
    rcases readNow_cases vectorAccess a u with ⟨_, hv⟩ | ⟨f, _, hv⟩ <;> rw [hv]
    · exact h1
    · exact h.update (h.memFault vectorAccess a f h1) (DataUpdate.refl _).drawWord

theorem linkageWrite (hs : I s) (w a v : Word) : Sound I Q id (linkageWrite w a v s) := by
  have h1 := h.takeTurn hs
  unfold Machine.linkageWrite
  cases hr : Machine.takeTurn s with
  | error o => rwa [hr] at h1
  | ok u =>
    rw [hr] at h1
    dsimp only
    rcases writeNow_cases (linkageAccess w) a v u with ⟨_, hv⟩ | ⟨_, hv⟩ | ⟨f, _, _, hv⟩ <;> rw [hv]
    · exact h.poke _ v h1
    · exact h.memFault _ _ _ h1
    · exact h.memFault _ _ f h1

theorem withVector (hs : I s) (a : Word) {k : Word → State → Out} (hk : ∀ v {u}, I u → Q (k v u)) :
    Q (withVector a s k) := (h.vectorRead hs a).andThen fun r hr => hk r.1 hr

theorem takeVector (hs : I s) (n : BitNo) (off : Word) {request : State → State} (hq : ∀ {u}, I u → I (request u)) :
    Q (takeVector n off request s) :=
  h.withVector hs _ fun _ _ h1 => h.withVector h1 _ fun m _ h2 => h.withVector h2 _ fun w _ h3 =>
    h.withVector h3 _ fun i _ h4 => h.withVector h4 _ fun lp _ h5 =>
      (h.linkageWrite h5 w lp _).andThen fun _ h6 => (h.linkageWrite h6 w _ _).andThen fun _ h7 =>
        (h.linkageWrite h7 w _ _).andThen fun _ h8 => h.next (h.disable (h.status m w i (hq h8)))

theorem interruptSequence (hs : I s) (n : BitNo) : Q (interruptSequence n s) := by
  unfold Machine.interruptSequence
  split
  · exact h.takeVector (h.clear 1 hs) 1 _ id
  · exact h.takeVector (h.freeze n hs) n _ (h.clear n)

theorem returnFrom (hs : I s) (a : Word) : Q (returnFrom a s) :=
  h.withWord hs a fun m _ h1 => h.withWord h1 _ fun w _ h2 => h.withWord h2 _ fun i _ h3 => h.next (h.status m w i h3)

end PreservesSequence

/-! ## A property along every instruction -/

/-- What the system instructions keep besides. -/
structure PreservesMachine (I : State → Prop) (Q : Out → Prop) : Prop extends PreservesSequence I Q where
  fault : ∀ {s} (k : BitNo), I s → I (raiseFault k s)
  output : ∀ {s} (c : OutCommand) (w : Word), I s → I (outputEffect c w s)
  input : ∀ {s} (c : InCommand), I s → I (inputEffect c s).2
  userFunction : ∀ {s} (t : State), I s → I (userResult s t)

theorem DataUpdate.advance {s u : State} (h : DataUpdate s u) (k : Nat) : DataUpdate s (advance k u) := h.jumpTo _

theorem DataUpdate.with_ic (s : State) (i : Word) : DataUpdate s { s with ic := i } := (DataUpdate.refl s).jumpTo i

namespace PreservesMachine

variable {I : State → Prop} {Q : Out → Prop} (h : PreservesMachine I Q) {s : State}
include h

theorem privileged (hs : I s) {k : Out} (hk : Q k) : Q (privileged s k) := by
  unfold Machine.privileged
  split
  · exact hk
  · exact h.next (h.fault 10 hs)

theorem performIo (hs : I s) (ra : Reg) (c : Word) : I (performIo ra c s) := by
  unfold Machine.performIo
  split
  · exact h.fault 5 hs
  · exact h.output _ _ hs
  · exact h.update (h.input _ hs) ((DataUpdate.refl _).setReg ra _)

theorem vioInput (hs : I s) (i : InCommand) (a : Word) : Sound I Q id (vioInput i a s) := by
  have h1 := h.takeTurn hs
  unfold Machine.vioInput
  cases hr : Machine.takeTurn s with
  | error o => rwa [hr] at h1
  | ok u =>
    rw [hr] at h1
    exact h.store (h.input i h1) a _

theorem vioChain (c0 vs r : Word) : ∀ (l : List BitNo) (a : Word) {s : State}, I s →
    Sound I Q id (vioChain c0 vs r l a s)
  | [], _, _, hs => hs
  | n :: l, a, s, hs => by
    unfold Machine.vioChain
    split
    · split
      · exact h.next (h.fault 5 hs)
      · next o _ =>
        have h1 := h.load hs a
        cases hr : Machine.load a s with
        | error e => rwa [hr] at h1
        | ok wu =>
          rw [hr] at h1
          exact vioChain c0 vs r l (a + 1) (h.output o wu.1 h1)
      · next i _ =>
        have h1 := h.vioInput hs i a
        cases hr : Machine.vioInput i a s with
        | error e => rwa [hr] at h1
        | ok u =>
          rw [hr] at h1
          exact vioChain c0 vs r l (a + 1) h1
    · exact vioChain c0 vs r l a hs

theorem execVio (hs : I s) (ra rx : Reg) (addr : Word) : Q (execVio ra rx addr s) :=
  h.privileged hs <| h.withWord hs _ fun _ _ hu => h.withWord hu _ fun _ _ hv =>
    (h.vioChain _ _ _ _ _ hv).andThen fun _ hw => h.next hw

theorem fetchNow (hs : I s) : Sound I Q Prod.snd (fetchNow s) := by
  rcases readNow_cases (fetchAccess s) s.ic s with ⟨_, hv⟩ | ⟨f, _, hv⟩
  · rw [fetchNow_of_ok hv]
    exact h.update hs ((DataUpdate.refl s).advance 1)
  · rw [fetchNow_of_error hv]
    exact h.next (h.update (h.memFault _ _ f hs) ((DataUpdate.refl _).advance 1))

theorem fetchNext (hs : I s) : Sound I Q Prod.snd (fetchNext s) := by
  have h1 := h.takeTurn hs
  unfold Machine.fetchNext
  cases hr : Machine.takeTurn s with
  | error o => rwa [hr] at h1
  | ok u =>
    rw [hr] at h1
    exact h.fetchNow h1

theorem fetchWords : ∀ (k : Nat) {s : State}, I s → Sound I Q Prod.snd (fetchWords k s)
  | 0, _, hs => hs
  | k + 1, s, hs => by
    have h1 := h.fetchNext hs
    unfold Machine.fetchWords
    cases hr : Machine.fetchNext s with
    | error o => rwa [hr] at h1
    | ok wu =>
      rw [hr] at h1
      have h2 := fetchWords k h1
      dsimp only
      cases hr' : Machine.fetchWords k wu.2 with
      | error o => rwa [hr'] at h2
      | ok r => rwa [hr'] at h2

theorem decoded (hs : I s) (w0 w1 ic : Word) : Sound I Q Prod.snd (decoded w0 w1 ic s) := by
  unfold Machine.decoded
  split
  · exact h.next (h.fault 9 (h.update hs (DataUpdate.with_ic s ic)))
  · exact hs

theorem fetch (hs : I s) : Sound I Q Prod.snd (fetch s) := by
  have h1 := h.fetchNow hs
  unfold Machine.fetch
  cases hr : Machine.fetchNow s with
  | error o => rwa [hr] at h1
  | ok wu =>
    rw [hr] at h1
    dsimp only
    split
    · have h2 := h.fetchNext h1
      cases hr' : Machine.fetchNext wu.2 with
      | error o => rwa [hr'] at h2
      | ok wv =>
        rw [hr'] at h2
        exact h.decoded h2 _ _ _
    · exact h.decoded h1 _ _ _

theorem execBif (hs : I s) (x : Byte) : Q (execBif x s) := by
  unfold Machine.execBif
  split
  · exact h.next (h.fault 9 hs)
  · exact (h.fetchWords _ hs).andThen fun r hr => h.next (h.userFunction _ hr)

/-- What all parts of all instructions keep, every instruction keeps. -/
theorem exec (hs : I s) (i : Instr) : Q (exec i s) := by
  refine h.toPreserves.exec hs i fun hi => ?_
  cases hi with
  | xio ra rx addr => exact h.privileged hs (h.next (h.performIo hs ra (daLong rx addr s)))
  | vio ra rx addr => exact h.execVio hs ra rx addr
  | lst rx addr => exact h.privileged hs (h.returnFrom hs _)
  | lsti rx addr => exact h.privileged hs (h.withPointer hs rx addr fun a _ hu => h.returnFrom hu a)
  | bex n => exact h.takeVector hs 5 _ id
  | userFunction x => exact h.execBif hs x

end PreservesMachine

/-! ## Faults and requests set bits (60_exceptions R780, R763) -/

/-- Between `s` and `t` no bit of FT or PI was cleared and no FT bit set that is not implemented. -/
structure OnlyRaises (s t : State) : Prop where
  cfg : t.cfg = s.cfg
  ft : KeepsBits 0xFFFF#16 s.ft t.ft
  pi : KeepsBits 0xFFFF#16 s.pi t.pi
  ftRest : t.ft &&& ~~~s.cfg.ftImplemented = s.ft &&& ~~~s.cfg.ftImplemented

theorem OnlyRaises.trans {s t u : State} (h : OnlyRaises s t) (h' : OnlyRaises t u) : OnlyRaises s u where
  cfg := h'.cfg.trans h.cfg
  ft := h.ft.trans h'.ft
  pi := h.pi.trans h'.pi
  ftRest := (h.cfg ▸ h'.ftRest).trans h.ftRest

/-- What touches neither FT nor PI. -/
theorem onlyRaises_of_same {s t : State} (hcfg : t.cfg = s.cfg) (hft : t.ft = s.ft) (hpi : t.pi = s.pi) :
    OnlyRaises s t where
  cfg := hcfg
  ft := hft ▸ .refl _ _
  pi := hpi ▸ .refl _ _
  ftRest := by rw [hft]

/-- An implemented bit does not touch those that are not implemented. -/
theorem bitMask_and_not {x : Word} {k : BitNo} (h : bitAt x k = true) : bitMask k &&& ~~~x = 0x0000#16 := by
  refine BitVec.eq_of_getLsbD_eq fun i hi => ?_
  have hmask := bitAt_bitMask k (Fin.ofNat 16 (15 - i))
  have hki : 15 - (Fin.ofNat 16 (15 - i)).val = i := by simp; omega
  rw [bitAt, hki] at hmask
  rw [BitVec.getLsbD_and, hmask, BitVec.getLsbD_zero]
  by_cases hk : Fin.ofNat 16 (15 - i) = k
  · have hx : x.getLsbD i = true := by rwa [← hk, bitAt, hki] at h
    rw [BitVec.getLsbD_not, hx]
    simp
  · rw [decide_eq_false hk, Bool.false_and]

theorem raiseFault_onlyRaises (k : BitNo) (s : State) : OnlyRaises s (raiseFault k s) where
  cfg := by rw [raiseFault_frame]
  ft := keepsBits_of_and_eq (raiseFault_ft_keeps k s)
  pi := keepsBits_of_and_eq (raiseFault_pi_keeps k s)
  ftRest := by
    rcases raiseFault_cases k s with ⟨hk, h⟩ | ⟨_, h⟩ <;> rw [h]
    rw [BitVec.and_or_distrib_right, bitMask_and_not hk, BitVec.or_zero]

theorem memFault_onlyRaises (g : Agent) (a : Access) (l : Word) (f : RefFault) (s : State) :
    OnlyRaises s (memFault g a l f s) := by
  have h := raiseFault_onlyRaises (f.ftBit g) s
  rw [memFault_frame]
  exact { h with cfg := rfl }

theorem OnlyRaises.raiseIf {s t : State} (h : OnlyRaises s t) (c : Bool) (n : BitNo) : OnlyRaises s (raiseIf c n t) := by
  cases c
  · exact h
  · exact { h with pi := h.pi.trans (keepsBits_or _ _ _) }

theorem captureMfsr_onlyRaises (l g : BitVec 4) (k : RefKind) (s : State) : OnlyRaises s (captureMfsr l k g s) := by
  unfold captureMfsr
  split <;> exact onlyRaises_of_same rfl rfl rfl

theorem deviceAccess_onlyRaises (d : DeviceAddress) (op : DeviceOp) (s : State) : OnlyRaises s (deviceAccess d op s) := by
  have htransfer : ∀ p, OnlyRaises s (deviceTransfer p op s) := fun p => by
    cases op <;> exact onlyRaises_of_same rfl rfl rfl
  unfold deviceAccess
  split
  · cases d with
    | mapped g k l =>
      dsimp only
      split
      · exact memFault_onlyRaises _ _ _ _ s
      · exact htransfer _
    | unmapped p =>
      dsimp only
      split
      · exact (raiseFault_onlyRaises _ s).trans (captureMfsr_onlyRaises _ _ _ _)
      · exact htransfer _
  · exact onlyRaises_of_same rfl rfl rfl

/-- An event that is not a reset sets bits of FT and PI and clears none. -/
theorem applyEvent_onlyRaises {e : Event} {s t : State} (hr : e.isReset = false) (h : applyEvent e s = some t) :
    OnlyRaises s t := by
  cases e <;> simp only [applyEvent, Option.some.injEq, Event.isReset, Bool.true_eq_false, reduceCtorEq] at h hr <;> subst h
  case tickA =>
    unfold tickTimerA
    split
    · refine OnlyRaises.raiseIf ?_ _ 7
      exact onlyRaises_of_same rfl rfl rfl
    · exact onlyRaises_of_same rfl rfl rfl
  case tickB =>
    unfold tickTimerB
    split
    · refine OnlyRaises.raiseIf ?_ _ 9
      exact onlyRaises_of_same rfl rfl rfl
    · exact onlyRaises_of_same rfl rfl rfl
  case request n => exact (onlyRaises_of_same rfl rfl rfl).raiseIf _ n
  case ioRequest level2 c =>
    cases level2
    · rw [channelRequest_level1]
      exact ⟨rfl, .refl _ _, keepsBits_or _ _ _, rfl⟩
    · rw [channelRequest_level2]
      exact ⟨rfl, .refl _ _, keepsBits_or _ _ _, rfl⟩
  case device d op => exact deviceAccess_onlyRaises d op s
  case platformFault k =>
    unfold platformFault
    split
    · exact raiseFault_onlyRaises k s
    · exact onlyRaises_of_same rfl rfl rfl
  all_goals exact onlyRaises_of_same rfl rfl rfl

theorem applyEvents_onlyRaises : ∀ {es : List Event} {s t : State}, applyEvents es s = .ok t → OnlyRaises s t
  | [], s, t, h => by
    cases h
    exact onlyRaises_of_same rfl rfl rfl
  | e :: rest, s, t, h => by
    unfold applyEvents at h
    split at h
    · cases h
    · next u hu =>
      split at h
      · cases h
      · next hr => exact (applyEvent_onlyRaises (by simpa using hr) hu).trans (applyEvents_onlyRaises h)

/-- A turn of the environment sets bits of FT and PI and clears none. -/
theorem takeTurn_onlyRaises {s u : State} (h : takeTurn s = .ok u) : OnlyRaises s u := by
  unfold takeTurn at h
  split at h
  · cases h
    exact onlyRaises_of_same rfl rfl rfl
  · next now later _ =>
    have hstart : OnlyRaises s { s with env := later } := onlyRaises_of_same rfl rfl rfl
    exact hstart.trans (applyEvents_onlyRaises h)

/-! ## What is good about a state -/

/-- What is good about a state also in the middle of an instruction. -/
structure GoodCore (s : State) : Prop where
  mem : Memory.wf s.mem = true
  pages : PagesOk s
  ft : s.ft &&& ~~~s.cfg.ftImplemented = 0x0000#16

/-- No bit is held back and no ENBL is marked: between two steps. -/
def MarksClear (s : State) : Prop := s.piHold = 0x0000#16 ∧ s.enblIssued = false

theorem good_iff (s : State) : Good s ↔ GoodCore s ∧ MarksClear s :=
  ⟨fun ⟨hmem, hpages, hft, hmarks⟩ => ⟨⟨hmem, hpages, hft⟩, hmarks⟩, fun ⟨h, hmarks⟩ => ⟨h.mem, h.pages, h.ft, hmarks⟩⟩

/-- From `s` to `t` the parameters stay, and what is good about `s` is good about `t`; the marks count when `marks` holds. -/
structure KeepsGood (marks : Prop) (s t : State) : Prop where
  cfg : t.cfg = s.cfg
  core : GoodCore s → GoodCore t
  clear : marks → GoodCore s → MarksClear s → MarksClear t

theorem PagesOk.congr {s t : State} (h : PagesOk s) (hcfg : t.cfg = s.cfg) (hpages : t.pages = s.pages) : PagesOk t := by
  unfold PagesOk pageRegister
  rw [hcfg, hpages]
  exact h

namespace KeepsGood

variable {m : Prop} {s t u : State}

theorem refl (s : State) : KeepsGood m s s := ⟨rfl, id, fun _ _ => id⟩

theorem trans (h : KeepsGood m s t) (h' : KeepsGood m t u) : KeepsGood m s u where
  cfg := h'.cfg.trans h.cfg
  core := fun hs => h'.core (h.core hs)
  clear := fun hm hc hs => h'.clear hm (h.core hc) (h.clear hm hc hs)

/-- What touches no page register and no mark, and no FT bit that is not implemented. -/
theorem of_onlyRaises (h : OnlyRaises s t) (hmem : Memory.wf s.mem = true → Memory.wf t.mem = true)
    (hpages : t.pages = s.pages) (hhold : t.piHold = s.piHold) (hissued : t.enblIssued = s.enblIssued) :
    KeepsGood m s t where
  cfg := h.cfg
  core := fun hs => ⟨hmem hs.mem, hs.pages.congr h.cfg hpages, by rw [h.cfg, h.ftRest, hs.ft]⟩
  clear := fun _ _ ⟨hh, hi⟩ => ⟨hhold.trans hh, hissued.trans hi⟩

/-- What touches neither memory nor the page file nor FT nor a mark. -/
theorem of_same (hcfg : t.cfg = s.cfg) (hmem : t.mem = s.mem) (hpages : t.pages = s.pages) (hft : t.ft = s.ft)
    (hhold : t.piHold = s.piHold) (hissued : t.enblIssued = s.enblIssued) : KeepsGood m s t where
  cfg := hcfg
  core := fun hs => ⟨hmem ▸ hs.mem, hs.pages.congr hcfg hpages, by rw [hcfg, hft, hs.ft]⟩
  clear := fun _ _ ⟨hh, hi⟩ => ⟨hhold.trans hh, hissued.trans hi⟩

/-- In the middle of an instruction the marks may change. -/
theorem of_core (hcfg : t.cfg = s.cfg) (h : GoodCore s → GoodCore t) : KeepsGood False s t :=
  ⟨hcfg, h, False.elim⟩

end KeepsGood

/-! ## The parts of an instruction keep what is good -/

section
variable {m : Prop} (s : State)

theorem keepsGood_of_dataUpdate {t : State} (h : DataUpdate s t) : KeepsGood m s t := by
  rw [h.frame]
  exact .of_same rfl rfl rfl rfl rfl rfl

theorem keepsGood_raiseFault (k : BitNo) : KeepsGood m s (raiseFault k s) := by
  have h := raiseFault_onlyRaises k s
  rw [raiseFault_frame] at h ⊢
  exact .of_onlyRaises h id rfl rfl rfl

theorem keepsGood_memFault (g : Agent) (a : Access) (l : Word) (f : RefFault) : KeepsGood m s (memFault g a l f s) := by
  have h := memFault_onlyRaises g a l f s
  rw [memFault_frame] at h ⊢
  exact .of_onlyRaises h id rfl rfl rfl

theorem keepsGood_write (p : PAddr) (v : Word) : KeepsGood m s { s with mem := Memory.writeWord s.mem p v } :=
  .of_onlyRaises (onlyRaises_of_same rfl rfl rfl) (Memory.wf_writeWord p v) rfl rfl rfl

theorem keepsGood_event {e : Event} {t : State} (hr : e.isReset = false) (h : applyEvent e s = some t) :
    KeepsGood m s t := by
  have hkeeps := applyEvent_keeps hr h
  exact .of_onlyRaises (applyEvent_onlyRaises hr h) (applyEvent_wf h) (by rw [hkeeps]) (by rw [hkeeps]) (by rw [hkeeps])

theorem keepsGood_turn {t : State} (h : takeTurn s = .ok t) : KeepsGood m s t := by
  have hkeeps := takeTurn_keeps h
  exact .of_onlyRaises (takeTurn_onlyRaises h) (takeTurn_wf h) (by rw [hkeeps]) (by rw [hkeeps]) (by rw [hkeeps])

theorem keepsGood_loadSW (v : Word) : KeepsGood m s (loadSW v s) := by
  have h : KeepsGood m s { s with sw := v } := .of_same rfl rfl rfl rfl rfl rfl
  rw [loadSW_eq]
  split
  · exact h
  · exact h.trans (keepsGood_raiseFault _ 11)

theorem keepsGood_loadStatus (x w i : Word) : KeepsGood m s (loadStatus x w i s) := by
  have h : KeepsGood m s { s with mask := x, ic := i } := .of_same rfl rfl rfl rfl rfl rfl
  exact h.trans (keepsGood_loadSW _ w)

theorem keepsGood_disable : KeepsGood m s (disableInterrupts s) where
  cfg := rfl
  core := fun hs => ⟨hs.mem, hs.pages, hs.ft⟩
  clear := fun _ _ ⟨hhold, _⟩ => ⟨hhold, rfl⟩

theorem keepsGood_freeze (n : BitNo) : KeepsGood m s (freezeIoic n s) := by
  rw [freezeIoic_eq]
  exact .of_same rfl rfl rfl rfl rfl rfl

/-- FT may be cleared. -/
theorem goodCore_of_ft_zero {t : State} (h : GoodCore s)
    (ht : t = { s with ft := 0x0000#16, pi := t.pi, piHold := t.piHold }) :
    GoodCore t := by
  rw [ht]
  exact ⟨h.mem, h.pages, BitVec.zero_and⟩

/-- What a page register stores of a word is a part of it that the parameters choose. -/
theorem pageWord_eq_and (c : Config) : ∃ x : Word, ∀ w, pageWord c w = w &&& x := by
  unfold pageWord
  split
  · exact ⟨_, fun _ => rfl⟩
  · split <;> exact ⟨_, fun _ => rfl⟩

/-- Storing a page register again changes nothing. -/
theorem pageRegisterOk_pageWord (c : Config) (w : Word) : pageRegisterOk c (pageWord c w) = true := by
  obtain ⟨x, hx⟩ := pageWord_eq_and c
  rw [pageRegisterOk, hx, hx, BitVec.and_assoc, BitVec.and_self, decide_eq_true rfl]

theorem pagesOk_writePage (h : PagesOk s) (kind : RefKind) (x y : BitVec 4) (w : Word) :
    PagesOk (writePage kind x y w s) := by
  intro kind' g' y'
  rw [pageRegister_writePage]
  split
  · exact pageRegisterOk_pageWord s.cfg w
  · exact h kind' g' y'

theorem keepsGood_output (c : OutCommand) (w : Word) : KeepsGood False s (outputEffect c w s) := by
  cases c
  case clir => exact .of_core rfl fun hs => goodCore_of_ft_zero s hs rfl
  case enbl =>
    change KeepsGood False s (enableInterrupts s)
    unfold enableInterrupts
    split
    · exact .refl s
    · exact .of_core rfl fun hs => ⟨hs.mem, hs.pages, hs.ft⟩
  case dsbl => exact keepsGood_disable s
  case rpi =>
    change KeepsGood False s (resetPending w s)
    unfold resetPending
    dsimp only
    split
    · exact .of_core rfl fun hs => goodCore_of_ft_zero s hs rfl
    · exact .of_same rfl rfl rfl rfl rfl rfl
  case spi => exact .of_core rfl fun hs => ⟨hs.mem, hs.pages, hs.ft⟩
  case wsw => exact keepsGood_loadSW s w
  case co =>
    change KeepsGood False s (consoleOutput w s)
    unfold consoleOutput
    split
    · exact .of_same rfl rfl rfl rfl rfl rfl
    · exact .refl s
  case clc =>
    change KeepsGood False s (consoleClear s)
    unfold consoleClear
    split
    · exact .of_same rfl rfl rfl rfl rfl rfl
    · exact .refl s
  case wipr x y => exact .of_core rfl fun hs => ⟨hs.mem, pagesOk_writePage s hs.pages _ x y w, hs.ft⟩
  case wopr x y => exact .of_core rfl fun hs => ⟨hs.mem, pagesOk_writePage s hs.pages _ x y w, hs.ft⟩
  all_goals exact .of_same rfl rfl rfl rfl rfl rfl

theorem keepsGood_input (c : InCommand) : KeepsGood m s (inputEffect c s).2 := by
  cases c
  case rcfr => exact ⟨rfl, fun hs => goodCore_of_ft_zero s hs rfl, fun _ _ => id⟩
  all_goals exact .of_same rfl rfl rfl rfl rfl rfl

theorem keepsGood_userResult (t : State) : KeepsGood False s (userResult s t) := by
  refine .of_core rfl fun _ => ⟨Memory.wf_ofImage t.mem, fun kind g y => ?_, ?_⟩
  · rw [pageRegister_storedPages (s := t) s.cfg rfl]
    exact pageRegisterOk_pageWord s.cfg _
  · change t.ft &&& s.cfg.ftImplemented &&& ~~~s.cfg.ftImplemented = _
    rw [BitVec.and_assoc, BitVec.and_not_self]
    exact BitVec.and_zero

/-- A reset gives a good state, whatever the marks were. -/
theorem good_resetEvent {mem : Memory} (hmem : Memory.wf mem = true) (npu : Bool) : Good (resetEvent mem npu s) := by
  obtain ⟨_, hpages, hft, hmarks⟩ := resetStateIsGood s.cfg
  exact ⟨hmem, hpages.congr (s := State.resetWith s.cfg) rfl rfl, hft, hmarks⟩

end

/-- An outcome that is a next state gives one with the property `P`. -/
def NextHas (P : State → Prop) (o : Out) : Prop := ∀ t, o = .next t → P t

theorem nextHas_next {P : State → Prop} {t : State} (h : P t) : NextHas P (.next t) :=
  fun _ ht => Host.Outcome.next.inj ht ▸ h

theorem NextHas.imp {P P' : State → Prop} {o : Out} (h : NextHas P o) (hi : ∀ {t}, P t → P' t) : NextHas P' o :=
  fun t ht => hi (h t ht)

/-- From `s` to `t` the parameters stay, and what is good about `s` makes all of `t` good. -/
def BecomesGood (s t : State) : Prop := t.cfg = s.cfg ∧ (GoodCore s → Good t)

theorem KeepsGood.becomesGood {s t u : State} (h : KeepsGood False s t) (h' : BecomesGood t u) : BecomesGood s u :=
  ⟨h'.1.trans h.cfg, fun hs => h'.2 (h.core hs)⟩

theorem BecomesGood.keepsGood {s t u : State} (h : BecomesGood s t) (h' : KeepsGood True t u) :
    BecomesGood s u := by
  refine ⟨h'.cfg.trans h.1, fun hs => (good_iff u).2 ?_⟩
  obtain ⟨hcore, hmarks⟩ := (good_iff t).1 (h.2 hs)
  exact ⟨h'.core hcore, h'.clear trivial hcore hmarks⟩

/-! ## The step -/

theorem reset_becomesGood {e : Event} {s t : State} (hr : e.isReset = true) (h : applyEvent e s = some t) :
    BecomesGood s t := by
  have hwf := applyEvent_wf h
  obtain ⟨mem, npu, hreset⟩ := applyEvent_of_isReset hr s
  obtain rfl := Option.some.inj (hreset.symm.trans h)
  exact ⟨rfl, fun hs => good_resetEvent s (hwf hs.mem) npu⟩

/-- The events of a turn that end the step end it in a state that a reset leaves, or at the loss of power. -/
theorem applyEvents_error_becomesGood : ∀ {es : List Event} {s : State} {o : Out}, applyEvents es s = .error o →
    NextHas (BecomesGood s) o
  | [], s, o, h => by cases h
  | e :: rest, s, o, h => by
    unfold applyEvents at h
    split at h
    · cases h
      exact fun t ht => by cases ht
    · next u hu =>
      split at h
      · next hr =>
        cases h
        obtain ⟨hcfg, hgood⟩ := reset_becomesGood hr hu
        exact nextHas_next ⟨hcfg, hgood⟩
      · next hr => exact (applyEvents_error_becomesGood h).imp (keepsGood_event s (by simpa using hr) hu).becomesGood

theorem takeTurn_error_becomesGood {s : State} {o : Out} (h : takeTurn s = .error o) : NextHas (BecomesGood s) o := by
  unfold takeTurn at h
  split at h
  · cases h
  · next now later _ =>
    have hstart : KeepsGood False s { s with env := later } := .of_same rfl rfl rfl rfl rfl rfl
    exact (applyEvents_error_becomesGood h).imp hstart.becomesGood

theorem BecomesGood.toKeepsGood {m : Prop} {s t : State} (h : BecomesGood s t) : KeepsGood m s t where
  cfg := h.1
  core := fun hc => ((good_iff t).1 (h.2 hc)).1
  clear := fun _ hc _ => ((good_iff t).1 (h.2 hc)).2

section
variable (s : State)

theorem preservesSequence_keepsGood (m : Prop) : PreservesSequence (KeepsGood m s) (NextHas (KeepsGood m s)) where
  next := nextHas_next
  update := fun h hu => h.trans (keepsGood_of_dataUpdate _ hu)
  turn := fun h ht => h.trans (keepsGood_turn _ ht)
  turnError := fun h ht => (takeTurn_error_becomesGood ht).imp fun hb => h.trans hb.toKeepsGood
  memFault := fun a l f h => h.trans (keepsGood_memFault _ _ a l f)
  write := fun _ v h _ => h.trans (keepsGood_write _ _ v)
  halt := fun h => h.trans (.of_same rfl rfl rfl rfl rfl rfl)
  poke := fun p v h => h.trans (keepsGood_write _ p v)
  status := fun x w i h => h.trans (keepsGood_loadStatus _ x w i)
  disable := fun h => h.trans (keepsGood_disable _)
  clear := fun _ h => h.trans (.of_same rfl rfl rfl rfl rfl rfl)
  freeze := fun n h => h.trans (keepsGood_freeze _ n)

theorem preservesMachine_keepsGood : PreservesMachine (KeepsGood False s) (NextHas (KeepsGood False s)) where
  toPreservesSequence := preservesSequence_keepsGood s False
  fault := fun k h => h.trans (keepsGood_raiseFault _ k)
  output := fun c w h => h.trans (keepsGood_output _ c w)
  input := fun c h => h.trans (keepsGood_input _ c)
  userFunction := fun t h => h.trans (keepsGood_userResult _ t)

/-- The delays end at the boundary. -/
theorem delays_becomeGood : BecomesGood s { delayedEnable s with piHold := 0x0000#16 } := by
  unfold delayedEnable
  split
  · next h =>
    have hissued : s.enblIssued = false := by simpa using (Bool.and_eq_true_iff.1 h).2
    exact ⟨rfl, fun hs => (good_iff _).2 ⟨⟨hs.mem, hs.pages, hs.ft⟩, rfl, hissued⟩⟩
  · exact ⟨rfl, fun hs => (good_iff _).2 ⟨⟨hs.mem, hs.pages, hs.ft⟩, rfl, rfl⟩⟩

theorem recognize_becomesGood : NextHas (BecomesGood s) (recognize s) := by
  have hdelays := delays_becomeGood s
  unfold recognize
  dsimp only
  split
  · exact nextHas_next hdelays
  · split
    · exact nextHas_next hdelays
    · next n _ =>
      exact ((preservesSequence_keepsGood _ True).interruptSequence (.refl _) n).imp hdelays.keepsGood

theorem boundary_becomesGood : NextHas (BecomesGood s) (boundary s) := by
  unfold boundary
  cases ht : takeTurn s with
  | error o => exact takeTurn_error_becomesGood ht
  | ok u => exact (recognize_becomesGood u).imp (keepsGood_turn s ht).becomesGood

theorem atBoundary_becomesGood {o : Out} (h : NextHas (KeepsGood False s) o) : NextHas (BecomesGood s) (atBoundary o) := by
  cases o with
  | next t => exact (boundary_becomesGood t).imp (h t rfl).becomesGood
  | fault f => exact fun t ht => by cases ht
  | refused r => exact fun t ht => by cases ht

theorem runInstruction_becomesGood : NextHas (BecomesGood s) (runInstruction s) := by
  have hmachine := preservesMachine_keepsGood s
  have h1 := hmachine.fetch (.refl s)
  unfold runInstruction
  cases hr : fetch s with
  | error o =>
    rw [hr] at h1
    exact atBoundary_becomesGood s h1
  | ok iu =>
    rw [hr] at h1
    exact atBoundary_becomesGood s (hmachine.exec h1 iu.1)

theorem step_keepsGood : NextHas (KeepsGood True s) (step s) := by
  unfold step
  cases ht : takeTurn s with
  | error o => exact (takeTurn_error_becomesGood ht).imp fun h => h.toKeepsGood
  | ok u =>
    have hturn : KeepsGood True s u := keepsGood_turn s ht
    rw [andThen_ok]
    split
    · exact nextHas_next hturn
    · exact (runInstruction_becomesGood u).imp fun h => hturn.trans h.toKeepsGood

end

/-- Settles O9: inside a step all but the marks stays good, and the boundary, or a reset, clears the marks. -/
theorem stepKeepsGoodState : Obligations.StepKeepsGoodState := by
  unfold Obligations.StepKeepsGoodState
  intro s t ht
  have h := step_keepsGood s t ht
  refine ⟨h.cfg, fun hs => (good_iff t).2 ?_⟩
  obtain ⟨hcore, hmarks⟩ := (good_iff s).1 hs
  exact ⟨h.core hcore, h.clear trivial hcore hmarks⟩

end Sys2Proof.Machine

/-! # The checks of a memory reference (20_memory R205 to R232)

Each check as the condition of the rule that states it, and which one decides; for the references of the CPU and for those of
the devices. -/

namespace Sys2Proof.Machine

/-! ## Translation (20_memory R205, R210) -/

theorem extractLow_toNat {w : Nat} (x : BitVec w) (n : Nat) : (x.extractLsb' 0 n).toNat = x.toNat % 2 ^ n := by
  rw [BitVec.extractLsb'_toNat, Nat.shiftRight_zero]

/-- The four top bits of a word. -/
theorem topDigit_toNat (x : Word) : (x.extractLsb' 12 4).toNat = x.toNat / 4096 := by
  rw [BitVec.extractLsb'_toNat, Nat.shiftRight_eq_div_pow]
  have := x.isLt
  omega

theorem topDigit_toFin (x : Word) : (x.extractLsb' 12 4).toFin = Fin.ofNat 16 (x.toNat / 4096) := by
  refine Fin.ext ?_
  change (x.extractLsb' 12 4).toNat = x.toNat / 4096 % 16
  have := x.isLt
  rw [topDigit_toNat]
  omega

theorem topDigit_zeroExtend (x : Word) : (x.extractLsb' 12 4).zeroExtend 16 = BitVec.ofNat 16 (x.toNat / 4096) := by
  refine BitVec.eq_of_toNat_eq ?_
  have := x.isLt
  rw [BitVec.zeroExtend, BitVec.toNat_setWidth, topDigit_toNat, BitVec.toNat_ofNat]

section
variable {s : State} {x : Expanded}

/-- The page register that a reference goes through in a machine with page registers. -/
theorem selectedPage_of_expanded (hx : s.cfg.expanded = some x) (a : Access) (l : Word) :
    selectedPage s a l = if a.group.toNat < x.groups.toNat then
      ((s.pages.get a.group.toFin).setOf a.kind).get (Fin.ofNat 16 (l.toNat / 4096))
    else BitVec.ofNat 16 (l.toNat / 4096) := by
  unfold selectedPage groupImplemented pageRegister
  rw [hx, topDigit_toFin, topDigit_zeroExtend]
  simp only [decide_eq_true_iff]

theorem translate_of_unexpanded (hx : s.cfg.expanded = none) (a : Access) (l : Word) :
    (translate s a l).toNat = l.toNat := by
  have := l.isLt
  rw [translate, hx, BitVec.zeroExtend, BitVec.toNat_setWidth, Nat.mod_eq_of_lt (by omega)]

theorem translate_of_expanded (hx : s.cfg.expanded = some x) (a : Access) (l : Word) :
    (translate s a l).toNat = (selectedPage s a l).toNat % 256 * 4096 + l.toNat % 4096 := by
  rw [translate, hx]
  dsimp only
  rw [toNat_append_eq, extractLow_toNat, extractLow_toNat]
  rfl

/-! ## What the page register forbids (20_memory R211 to R213) -/

/-- Table VII. -/
theorem keyOk_iff (lock key : BitVec 4) :
    keyOk lock key = true ↔ key.toNat = 0 ∨ lock.toNat = 15 ∨ lock.toNat = key.toNat := by
  simp only [keyOk, Bool.or_eq_true, decide_eq_true_iff, ← BitVec.toNat_inj, or_assoc]
  rfl

/-- Without page registers none forbids anything. -/
theorem pageFault_of_unexpanded (hx : s.cfg.expanded = none) (a : Access) (wr : Bool) (l : Word) :
    pageFault s a wr l = none := by rw [pageFault, hx]

/-- The key comes first, then E of an instruction page or W of an operand page. -/
theorem pageFault_of_expanded (hx : s.cfg.expanded = some x) (a : Access) (wr : Bool) (l : Word) : pageFault s a wr l =
    if x.lockKey = true ∧ ¬(a.key.toNat = 0 ∨ (selectedPage s a l).toNat / 4096 = 15 ∨
        (selectedPage s a l).toNat / 4096 = a.key.toNat) then some .access
    else if a.kind = .instr ∧ bitAt (selectedPage s a l) 4 = true then some .executeProtect
    else if a.kind = .oper ∧ wr = true ∧ bitAt (selectedPage s a l) 4 = true then some .writeProtect
    else none := by
  have hkey : (x.lockKey && !keyOk ((selectedPage s a l).extractLsb' 12 4) a.key) = true ↔ x.lockKey = true ∧
      ¬(a.key.toNat = 0 ∨ (selectedPage s a l).toNat / 4096 = 15 ∨ (selectedPage s a l).toNat / 4096 = a.key.toNat) := by
    rw [Bool.and_eq_true, Bool.not_eq_true', ← Bool.not_eq_true, keyOk_iff, topDigit_toNat]
  rw [pageFault, hx]
  dsimp only
  refine ite_congr (propext hkey) (fun _ => rfl) fun _ => ?_
  cases a.kind <;> cases wr <;> simp

end

/-! ## What the physical word forbids (20_memory R215, R216, R218 to R220) -/

section
variable {s : State} {g : Agent} {wr : Bool} {p : PAddr}

/-- A write to a protected block: by its bit of the agent's half of the RAM, or before the RAM is enabled by the
parameter. -/
theorem writeProtected_iff (s : State) (g : Agent) (p : PAddr) : writeProtected s g p = true ↔
    s.cfg.memProtectRam = true ∧ ((s.mprotEn = false ∧ s.cfg.mprotResetGlobal = true) ∨
      (s.mprotEn = true ∧ bitAt (s.mprot.get (Fin.ofNat 128 (g.mprotBase + p.toNat / 16384)))
        (Fin.ofNat 16 (p.toNat / 1024 % 16)) = true)) := by
  have hword : mprotIndex g p = Fin.ofNat 128 (g.mprotBase + p.toNat / 16384) := by
    rw [mprotIndex, Nat.div_div_eq_div_mul]
  have hbit : Fin.ofNat 16 (p.toNat / 1024) = Fin.ofNat 16 (p.toNat / 1024 % 16) := by
    refine Fin.ext ?_
    change _ % 16 = _ % 16 % 16
    omega
  rw [writeProtected, blockProtected, hword, hbit, Bool.and_eq_true]
  cases s.mprotEn <;> simp

theorem physAbsent_iff (c : Config) (p : PAddr) : (!physPresent c p) = true ↔
    (c.expanded = none ∧ 65536 ≤ p.toNat) ∨ ∃ r ∈ c.absent, r.1 ≤ p.toNat ∧ p.toNat < r.1 + r.2 := by
  rw [physPresent, Bool.not_and, Bool.or_eq_true, Bool.not_not, List.any_eq_true]
  simp only [Bool.not_or, Bool.and_eq_true, Bool.not_eq_true', Option.isSome_eq_false_iff, Option.isNone_iff_eq_none,
    decide_eq_false_iff_not, Nat.not_lt, decide_eq_true_iff]

theorem parityShown_iff (s : State) (wr : Bool) (p : PAddr) :
    (!wr && s.cfg.parity && s.parityBad.contains p.toNat) = true ↔
      wr = false ∧ s.cfg.parity = true ∧ p.toNat ∈ s.parityBad := by
  rw [Bool.and_eq_true, Bool.and_eq_true, List.contains_iff_mem, Bool.not_eq_true', and_assoc]

/-- The order of the checks of a physical word. -/
theorem physFault_spec {blocked absent bad : Prop} (hblocked : (wr && writeProtected s g p) = true ↔ blocked)
    (habsent : (!physPresent s.cfg p) = true ↔ absent)
    (hbad : (!wr && s.cfg.parity && s.parityBad.contains p.toNat) = true ↔ bad) :
    (blocked → physFault s g wr p = some .writeProtect) ∧
      (¬blocked → absent → physFault s g wr p = some .illegalAddress) ∧
      (¬blocked → ¬absent → bad → physFault s g wr p = some .parity) ∧
      (¬blocked → ¬absent → ¬bad → physFault s g wr p = none) := by
  unfold physFault
  refine ⟨fun h => ?_, fun h h' => ?_, fun h h' h'' => ?_, fun h h' h'' => ?_⟩
  · rw [if_pos (hblocked.2 h)]
  · rw [if_neg (mt hblocked.1 h), if_pos (habsent.2 h')]
  · rw [if_neg (mt hblocked.1 h), if_neg (mt habsent.1 h'), if_pos (hbad.2 h'')]
  · rw [if_neg (mt hblocked.1 h), if_neg (mt habsent.1 h'), if_neg (mt hbad.1 h'')]

end

section
variable {s : State} {g : Agent} {a : Access} {wr : Bool} {l : Word}

theorem refFault_of_pageFault {f : RefFault} (h : pageFault s a wr l = some f) : refFault s g a wr l = some f := by
  rw [refFault, h]

theorem refFault_of_page_ok (h : pageFault s a wr l = none) :
    refFault s g a wr l = physFault s g wr (translate s a l) := by
  rw [refFault, h]

end

/-- Settles O23: the page register decides before the physical word does. -/
theorem referencePassesExactlyWhenAllowed : Obligations.ReferencePassesExactlyWhenAllowed := by
  unfold Obligations.ReferencePassesExactlyWhenAllowed
  intro s g a wr l file page p half locked noExecute noWrite blocked absent parity
  have hblocked : (wr && writeProtected s g (translate s a l)) = true ↔ blocked := by
    rw [Bool.and_eq_true, writeProtected_iff]
    cases g <;> exact Iff.rfl
  have hphys := physFault_spec hblocked (physAbsent_iff s.cfg _) (parityShown_iff s wr _)
  have hpage : ∀ {x}, s.cfg.expanded = some x → selectedPage s a l = page x := fun hx => by
    rw [selectedPage_of_expanded hx]
    simp only [page, file]
    cases a.kind <;> rfl
  cases hx : s.cfg.expanded with
  | none =>
    have hnone : ∀ {P : Expanded → Prop}, ¬∃ x, s.cfg.expanded = some x ∧ P x := by
      rintro P ⟨x, hx', -⟩
      rw [hx] at hx'
      cases hx'
    have href := refFault_of_page_ok (g := g) (pageFault_of_unexpanded hx a wr l)
    rw [href]
    exact ⟨translate_of_unexpanded hx a l, fun h => absurd h hnone, fun _ h => absurd h hnone, fun _ h => absurd h hnone,
      fun _ _ _ => hphys⟩
  | some x =>
    have hsome : ∀ {P : Expanded → Prop}, (∃ x, s.cfg.expanded = some x ∧ P x) ↔ P x := fun {P} => by
      simp only [hx, Option.some.injEq, exists_eq_left']
    have hfault := pageFault_of_expanded hx a wr l
    have haddress := translate_of_expanded hx a l
    rw [hpage hx] at hfault haddress
    refine ⟨haddress, fun h => ?_, fun h h' => ?_, fun h h' => ?_,
      fun h h' h'' => ?_⟩
    · exact refFault_of_pageFault (hfault.trans (if_pos (hsome.1 h)))
    · exact refFault_of_pageFault (hfault.trans ((if_neg (mt hsome.2 h)).trans (if_pos (hsome.1 h'))))
    · have hkind : ¬(a.kind = .instr ∧ bitAt (page x) 4 = true) := by
        rw [(hsome.1 h').1]
        exact fun hk => nomatch hk.1
      exact refFault_of_pageFault
        (hfault.trans ((if_neg (mt hsome.2 h)).trans ((if_neg hkind).trans (if_pos (hsome.1 h')))))
    · rw [refFault_of_page_ok
        (hfault.trans ((if_neg (mt hsome.2 h)).trans ((if_neg (mt hsome.2 h')).trans (if_neg (mt hsome.2 h'')))))]
      exact hphys

/-! ## The references of the devices (20_memory R214, R217, R232) -/

theorem ftBit_dma (f : RefFault) : f.ftBit .dma = if f = .illegalAddress then 8 else if f = .parity then 2 else 1 := by
  cases f <;> rfl

theorem ftBit_cpu (f : RefFault) : f.ftBit .cpu = if f = .illegalAddress then 8 else if f = .parity then 2 else 0 := by
  cases f <;> rfl

/-- The page that a physical address names. -/
theorem physicalPage_eq (c : Config) (p : PAddr) :
    physicalPage c p = BitVec.ofNat 4 (if c.expanded.isSome then p.toNat / 65536 else p.toNat / 4096) := by
  refine BitVec.eq_of_toNat_eq ?_
  unfold physicalPage
  split <;> rw [BitVec.extractLsb'_toNat, Nat.shiftRight_eq_div_pow, BitVec.toNat_ofNat]

theorem captureMfsr_frame (lpa : BitVec 4) (k : RefKind) (g : BitVec 4) (s : State) :
    captureMfsr lpa k g s = { s with mfsr := (captureMfsr lpa k g s).mfsr } := by
  unfold captureMfsr
  split <;> rfl

/-- Without DMA, or while it is disabled, a device reaches nothing. -/
theorem deviceAccess_of_disabled {s : State} (h : s.cfg.dma = false ∨ s.dmaEn = false) (d : DeviceAddress) (op : DeviceOp) :
    deviceAccess d op s = s := by
  have hoff : ¬(s.cfg.dma && s.dmaEn) = true := by rcases h with h | h <;> simp [h]
  exact if_neg hoff

section
variable {s : State} (hdma : s.cfg.dma = true) (hen : s.dmaEn = true) {op : DeviceOp} {f : RefFault}
include hdma hen

section
variable {group key : BitVec 4} {l : Word}

theorem deviceAccess_mapped_of_fault (h : refFault s .dma ⟨.oper, group, key⟩ op.isWrite l = some f) :
    deviceAccess (.mapped group key l) op s = memFault .dma ⟨.oper, group, key⟩ l f s := by
  simp only [deviceAccess, hdma, hen, Bool.and_self, if_true, h]

theorem deviceAccess_mapped_of_pass (h : refFault s .dma ⟨.oper, group, key⟩ op.isWrite l = none) :
    deviceAccess (.mapped group key l) op s = deviceTransfer (translate s ⟨.oper, group, key⟩ l) op s := by
  simp only [deviceAccess, hdma, hen, Bool.and_self, if_true, h]

end

variable {p : PAddr}

theorem deviceAccess_unmapped_of_fault (h : physFault s .dma op.isWrite p = some f) : deviceAccess (.unmapped p) op s =
    captureMfsr (physicalPage s.cfg p) .oper 0x0#4 (raiseFault (f.ftBit .dma) s) := by
  simp only [deviceAccess, hdma, hen, Bool.and_self, if_true, h]

theorem deviceAccess_unmapped_of_pass (h : physFault s .dma op.isWrite p = none) :
    deviceAccess (.unmapped p) op s = deviceTransfer p op s := by
  simp only [deviceAccess, hdma, hen, Bool.and_self, if_true, h]

/-- A physical reference that is refused leaves its fault and the page it names. -/
theorem device_unmapped_faulted (h : physFault s .dma op.isWrite p = some f) :
    ∃ t, applyEvent (.device (.unmapped p) op) s = some t ∧ t = { raiseFault (f.ftBit .dma) s with mfsr := t.mfsr } ∧
      MfsrShows (BitVec.ofNat 4 (if s.cfg.expanded.isSome then p.toNat / 65536 else p.toNat / 4096)) 0#1 0#4 s t := by
  have hraise := raiseFault_frame (f.ftBit .dma) s
  refine ⟨_, congrArg some (deviceAccess_unmapped_of_fault hdma hen h), captureMfsr_frame _ _ _ _, ?_⟩
  rw [← physicalPage_eq]
  exact captureMfsr_shows _ .oper _ (by rw [hraise]) (by rw [hraise])

end

/-- Settles O28: a mapped reference is checked as an operand reference, a physical one from the block on. -/
theorem deviceReferencesAreCheckedLikeOperands : Obligations.DeviceReferencesAreCheckedLikeOperands := by
  unfold Obligations.DeviceReferencesAreCheckedLikeOperands
  intro s group key l v bit a
  refine ⟨fun h d op => congrArg some (deviceAccess_of_disabled h d op), fun hdma hen =>
    ⟨?faulted, ?write, ?read, ?physical⟩⟩
  case faulted =>
    intro f op h
    have hbit : bit f = f.ftBit .dma := (ftBit_dma f).symm
    rw [hbit]
    exact ⟨_, congrArg some (deviceAccess_mapped_of_fault hdma hen h), memFault_refFaulted .dma a l f s⟩
  case write => exact fun h => congrArg some (deviceAccess_mapped_of_pass (op := .write v) hdma hen h)
  case read => exact fun h => congrArg some (deviceAccess_mapped_of_pass (op := .read) hdma hen h)
  case physical =>
    intro p blocked absent bad faulted
    obtain ⟨hblocked, habsent, -, hpass⟩ := physFault_spec (s := s) (g := .dma) (wr := true) (p := p)
      ((writeProtected_iff s .dma p)) (physAbsent_iff s.cfg p) (parityShown_iff s true p)
    obtain ⟨-, habsent', hbad', hpass'⟩ := physFault_spec (s := s) (g := .dma) (wr := false) (p := p)
      (blocked := False) (by simp) (physAbsent_iff s.cfg p) (parityShown_iff s false p)
    refine ⟨fun h => ?_, fun h h' => ?_, fun h => ?_, fun h h' => ?_, fun h h' => ?_, fun h h' => ?_⟩
    · exact device_unmapped_faulted (op := .write v) (f := .writeProtect) hdma hen (hblocked h)
    · exact device_unmapped_faulted (op := .write v) (f := .illegalAddress) hdma hen (habsent h h')
    · exact device_unmapped_faulted (op := .read) (f := .illegalAddress) hdma hen (habsent' not_false h)
    · exact device_unmapped_faulted (op := .read) (f := .parity) hdma hen (hbad' not_false h ⟨rfl, h'⟩)
    · exact congrArg some (deviceAccess_unmapped_of_pass (op := .write v) hdma hen (hpass h h' fun hp => nomatch hp.1))
    · exact congrArg some (deviceAccess_unmapped_of_pass (op := .read) hdma hen (hpass' not_false h fun hp => h' hp.2))

/-! ## Reading and storing an operand word (20_memory R222, R223, R229, R230) -/

section
variable {s u : State} {a : Word}

theorem KeepsBits.and_eq_left {x y : Word} (h : KeepsBits 0xFFFF#16 x y) : x &&& y = x := by
  have hx : x &&& 0xFFFF#16 = x := BitVec.and_allOnes
  have hand := h.and_eq
  rwa [hx] at hand

/-- A turn of the environment leaves group and key of the operand references. -/
theorem operAccess_of_turn (ht : takeTurn s = .ok u) : operAccess s = operAccess u := by
  rw [takeTurn_keeps ht]
  rfl

theorem load_of_turn_error {o : Out} (ht : takeTurn s = .error o) : load a s = .error o := by
  rw [load, readRef, ht]

theorem load_of_fault {f : RefFault} (ht : takeTurn s = .ok u)
    (hf : refFault u .cpu (operAccess u) false a = some f) :
    load a s = .error (.next (memFault .cpu (operAccess u) a f u)) := by
  simp only [load, readRef, ht, readNow, operAccess_of_turn ht, hf]

theorem load_of_pass (ht : takeTurn s = .ok u) (hf : refFault u .cpu (operAccess u) false a = none) :
    load a s = .ok (physRead u (physOf u a), u) := by
  simp only [load, readRef, ht, readNow, operAccess_of_turn ht, hf, physOf]

/-- The start-up ROM overlays memory where it holds the address. -/
theorem physRead_of_rom {p : PAddr} {rom : List Word} {w : Word} (hrom : s.cfg.rom = some rom) (hen : s.romEn = true)
    (hlow : p.toNat < 65536) (hw : rom[p.toNat]? = some w) : physRead s p = w := by
  simp only [physRead, romWord, hrom, hen, hlow, decide_true, Bool.and_self, if_true, hw]

/-- Where the ROM does not overlay, memory is read. -/
theorem physRead_of_memory {p : PAddr} (h : s.cfg.rom = none ∨ s.romEn = false ∨ 65536 ≤ p.toNat ∨
    ∀ rom, s.cfg.rom = some rom → rom.length ≤ p.toNat) : physRead s p = Memory.readWord s.mem p := by
  have hrom : romWord s p = none := by
    unfold romWord
    split
    · rfl
    · next rom hrom =>
      split
      · next hon =>
        rw [Bool.and_eq_true, decide_eq_true_iff] at hon
        obtain ⟨hen, hlow⟩ := hon
        rcases h with h | h | h | h
        · rw [hrom] at h
          cases h
        · rw [hen] at h
          cases h
        · exact absurd hlow (Nat.not_lt.2 h)
        · exact List.getElem?_eq_none (h rom hrom)
      · rfl
  rw [physRead, hrom]

end

/-- Settles O24: a load is a turn, then the checks, then the word of the ROM or of memory. -/
theorem loadReadsMemoryOrFaults : Obligations.LoadReadsMemoryOrFaults := by
  unfold Obligations.LoadReadsMemoryOrFaults
  refine fun s a => ⟨fun o => load_of_turn_error, fun u ht => ⟨?_, fun f hf => ?_, fun hf => ⟨?_, fun h => ?_⟩⟩⟩
  · have hraises := takeTurn_onlyRaises ht
    have hft := hraises.ft.and_eq_left
    have hpi := hraises.pi.and_eq_left
    have hu := takeTurn_keeps ht
    refine ⟨?_, ?_, ?_, ?_, ?_, ?_, ?_, ?_, ?_, ?_, ?_, ?_, ?_, ?_, ?_, ?_, hft, hpi⟩ <;> rw [hu]
  · rw [← ftBit_cpu]
    exact ⟨_, load_of_fault ht hf, memFault_refFaulted .cpu (operAccess u) a f u⟩
  · intro rom w hrom hen hlow hw
    rw [load_of_pass ht hf, physRead_of_rom hrom hen hlow hw]
  · rw [load_of_pass ht hf, physRead_of_memory h]

/-- Settles O25: the store writes the word of memory that the address reaches. -/
theorem storeThenReadGivesStoredWord : Obligations.StoreThenReadGivesStoredWord := by
  unfold Obligations.StoreThenReadGivesStoredWord
  intro s u a v hw ht ha
  obtain ⟨t, hstore, ⟨ht', hmem⟩, hwt⟩ := store_storeResult v hw ht ha
  exact ⟨t, hstore, ht', hwt, hmem⟩

end Sys2Proof.Machine

/-! # Reads that abandon the instruction (20_memory R222, R231)

What ends a reference ends each operation that the instructions are written with; then every form is one of these
operations at its address. -/

namespace Sys2Proof.Machine

/-! ## The operations over references -/

section
variable {s u v : State} {a : Word} {o : Out}

theorem load2_of_error (h : load a s = .error o) : load2 a s = .error o := by rw [load2, h]

theorem load2_of_second_error {d : Word} (h : load a s = .ok (d, u)) (h' : load (a + 1) u = .error o) :
    load2 a s = .error o := by
  simp only [load2, h, h']

theorem load3_of_load2_error (h : load2 a s = .error o) : load3 a s = .error o := by rw [load3, h]

theorem load3_of_third_error {d : DWord} (h : load2 a s = .ok (d, u)) (h' : load (a + 2) u = .error o) :
    load3 a s = .error o := by
  simp only [load3, h, h']

/-- Two words that were read, one by one. -/
theorem load2_ok {d : DWord} (h : load2 a s = .ok (d, v)) :
    ∃ x y w, load a s = .ok (x, w) ∧ load (a + 1) w = .ok (y, v) := by
  unfold load2 at h
  cases h1 : load a s with
  | error e => simp [h1] at h
  | ok r =>
    rw [h1] at h
    dsimp only at h
    cases h2 : load (a + 1) r.2 with
    | error e =>
      rw [h2] at h
      cases h
    | ok q =>
      rw [h2] at h
      cases h
      exact ⟨_, _, _, rfl, h2⟩

theorem withWord_of_error {k : Word → State → Out} (h : load a s = .error o) : withWord a s k = o := by
  rw [withWord, h, andThen_error]

theorem withDouble_of_error {k : DWord → State → Out} (h : load2 a s = .error o) : withDouble a s k = o := by
  rw [withDouble, h, andThen_error]

theorem withTriple_of_error {k : TWord → State → Out} (h : load3 a s = .error o) : withTriple a s k = o := by
  rw [withTriple, h, andThen_error]

theorem withPointer_of_error {rx : Reg} {addr : Word} {k : Word → State → Out} (h : load (daLong rx addr s) s = .error o) :
    withPointer rx addr s k = o := by
  rw [withPointer, daIndirect, h, andThen_error]

theorem loadWordTo_of_error {ra : Reg} (h : load a s = .error o) : loadWordTo ra a s = o := withWord_of_error h

theorem loadPairTo_of_error {ra : Reg} (h : load2 a s = .error o) : loadPairTo ra a s = o := withDouble_of_error h

theorem loadUpperTo_of_error {ra : Reg} (h : load a s = .error o) : loadUpperTo ra a s = o := withWord_of_error h

theorem loadLowerTo_of_error {ra : Reg} (h : load a s = .error o) : loadLowerTo ra a s = o := withWord_of_error h

theorem testWord_of_error {n : BitNo} (h : load a s = .error o) : testWord a n s = o := withWord_of_error h

theorem updateWord_of_error {f : Word → Word} (h : load a s = .error o) : updateWord a f s = o := withWord_of_error h

theorem storeUpperFrom_of_error {ra : Reg} (h : load a s = .error o) : storeUpperFrom ra a s = o := updateWord_of_error h

theorem storeLowerFrom_of_error {ra : Reg} (h : load a s = .error o) : storeLowerFrom ra a s = o := updateWord_of_error h

theorem returnFrom_of_second_error {d : Word} (h : load a s = .ok (d, u)) (h' : load (a + 1) u = .error o) :
    returnFrom a s = o := by
  rw [returnFrom, withWord_of_load _ h, withWord_of_error h']

theorem returnFrom_of_third_error {d : DWord} (h : load2 a s = .ok (d, v)) (h' : load (a + 2) v = .error o) :
    returnFrom a s = o := by
  obtain ⟨x, y, w, h1, h2⟩ := load2_ok h
  rw [returnFrom, withWord_of_load _ h1, withWord_of_load _ h2, withWord_of_error h']

theorem exec_lst_of_privileged (rx : Reg) (addr : Word) (hps : psOf s.sw = 0x0#4) :
    exec (.lst rx addr) s = returnFrom (daLong rx addr s) s := privileged_of_zero _ hps

theorem exec_lsti_of_privileged (rx : Reg) (addr : Word) (hps : psOf s.sw = 0x0#4) :
    exec (.lsti rx addr) s = withPointer rx addr s returnFrom := privileged_of_zero _ hps

theorem exec_vio_of_error (ra rx : Reg) (addr : Word) (hps : psOf s.sw = 0x0#4)
    (h : load (daLong rx addr s) s = .error o) : exec (.vio ra rx addr) s = o :=
  (privileged_of_zero _ hps).trans (withWord_of_error h)

theorem exec_vio_of_second_error (ra rx : Reg) (addr : Word) {d : Word} (hps : psOf s.sw = 0x0#4)
    (h : load (daLong rx addr s) s = .ok (d, u)) (h' : load (daLong rx addr s + 1) u = .error o) :
    exec (.vio ra rx addr) s = o := by
  change execVio ra rx addr s = o
  rw [execVio, privileged_of_zero _ hps, withWord_of_load _ h, daLong_congr (load_keeps h).1, withWord_of_error h']

theorem exec_cbl_of_second_error (ra rx : Reg) (addr : Word) {d : Word} (h : load (daLong rx addr s) s = .ok (d, u))
    (h' : load (daLong rx addr s + 1) u = .error o) : exec (.cbl ra rx addr) s = o := by
  change execCbl ra rx addr s = o
  rw [execCbl, withWord_of_load _ h, daLong_congr (load_keeps h).1, withWord_of_error h']

theorem loadRegs_of_error (n : Nat) (r : Reg) (h : load a s = .error o) : loadRegs (n + 1) r a s = .error o := by
  rw [loadRegs, h]

end

/-! ## The first word of the operand or the pointer -/

section
variable {s : State} {o : Out}

theorem long_abandoned {rx : Reg} {addr : Word} (h : load (daLong rx addr s) s = .error o) (ra : Reg) :
    ∀ i ∈ [Instr.l ra rx addr, .li ra rx addr, .lub ra rx addr, .llb ra rx addr, .lubi ra rx addr, .llbi ra rx addr,
        .dl ra rx addr, .dli ra rx addr, .efl ra rx addr, .lm ra rx addr, .a ra rx addr, .s ra rx addr, .da ra rx addr,
        .ds ra rx addr, .ms ra rx addr, .m ra rx addr, .dm ra rx addr, .dv ra rx addr, .d ra rx addr, .dd ra rx addr,
        .fa ra rx addr, .fs ra rx addr, .fm ra rx addr, .fd ra rx addr, .efa ra rx addr, .efs ra rx addr, .efm ra rx addr,
        .efd ra rx addr, .fc ra rx addr, .efc ra rx addr, .or ra rx addr, .and ra rx addr, .xor ra rx addr, .n ra rx addr,
        .c ra rx addr, .dc ra rx addr, .cbl ra rx addr, .sb ra rx addr, .sbi ra rx addr, .rb ra rx addr, .rbi ra rx addr,
        .tb ra rx addr, .tbi ra rx addr, .tsb ra rx addr, .sti ra rx addr, .stci ra rx addr, .dsti ra rx addr,
        .srm ra rx addr, .stub ra rx addr, .stlb ra rx addr, .subi ra rx addr, .slbi ra rx addr,
        .incm ra.val rx addr, .decm ra.val rx addr, .jci (BitVec.ofFin ra) rx addr],
      exec i s = o := by
  have word : ∀ {k}, withWord (daLong rx addr s) s k = o := withWord_of_error h
  have double : ∀ {k}, withDouble (daLong rx addr s) s k = o := withDouble_of_error (load2_of_error h)
  have triple : ∀ {k}, withTriple (daLong rx addr s) s k = o :=
    withTriple_of_error (load3_of_load2_error (load2_of_error h))
  have pointer : ∀ {k}, withPointer rx addr s k = o := withPointer_of_error h
  have several : exec (.lm ra rx addr) s = o := congrArg (fun r => andThen r .next) (loadRegs_of_error _ 0 h)
  simp only [List.forall_mem_cons]
  delta exec
  dsimp only
  exact ⟨loadWordTo_of_error h, pointer, loadUpperTo_of_error h, loadLowerTo_of_error h, pointer, pointer,
    loadPairTo_of_error (load2_of_error h), pointer, triple, several, word, word, double, double, word, word, double, word,
    word, double, double, double, double, double, triple, triple, triple, triple, double, triple, word, word, word, word,
    word, double, word, updateWord_of_error h, pointer, updateWord_of_error h, pointer, testWord_of_error h, pointer, word,
    pointer, pointer, pointer, updateWord_of_error h, storeUpperFrom_of_error h, storeLowerFrom_of_error h, pointer,
    pointer, word, word, pointer, List.forall_mem_nil _⟩

theorem base_abandoned {br : Reg} {x : Byte} (h : load (daBase br x s) s = .error o) :
    ∀ i ∈ [Instr.lb br x, .dlb br x, .ab br x, .sbb br x, .mb br x, .db br x, .fab br x, .fsb br x, .fmb br x, .fdb br x,
        .orb br x, .andb br x, .cb br x, .fcb br x], exec i s = o := by
  have word : ∀ {k}, withWord (daBase br x s) s k = o := withWord_of_error h
  have double : ∀ {k}, withDouble (daBase br x s) s k = o := withDouble_of_error (load2_of_error h)
  simp only [List.forall_mem_cons]
  delta exec
  dsimp only
  exact ⟨loadWordTo_of_error h, loadPairTo_of_error (load2_of_error h), word, word, word, word, double, double,
    double, double, word, word, word, double, List.forall_mem_nil _⟩

theorem baseIndexed_abandoned {br rx : Reg} (h : load (daBaseIndexed br rx s) s = .error o) :
    ∀ i ∈ [Instr.lbx br rx, .dlbx br rx, .abx br rx, .sbbx br rx, .mbx br rx, .dbx br rx, .fabx br rx, .fsbx br rx,
        .fmbx br rx, .fdbx br rx, .orbx br rx, .andx br rx, .cbx br rx, .fcbx br rx], exec i s = o := by
  have word : ∀ {k}, withWord (daBaseIndexed br rx s) s k = o := withWord_of_error h
  have double : ∀ {k}, withDouble (daBaseIndexed br rx s) s k = o := withDouble_of_error (load2_of_error h)
  simp only [List.forall_mem_cons]
  delta exec
  dsimp only
  exact ⟨loadWordTo_of_error h, loadPairTo_of_error (load2_of_error h), word, word, word, word, double, double,
    double, double, word, word, word, double, List.forall_mem_nil _⟩

theorem urs_abandoned {ra : Reg} (h : load (s.reg ra) s = .error o) : exec (.urs ra) s = o := by
  change execUrs ra s = o
  exact withWord_of_error h

theorem mov_abandoned {ra rb : Reg} (hn : s.reg (ra + 1) ≠ 0x0000#16) (h : load (s.reg rb) s = .error o) :
    exec (.mov ra rb) s = o := by
  change execMov ra rb s = o
  exact (if_neg hn).trans (withWord_of_error h)

theorem privileged_abandoned {ra rx : Reg} {addr : Word} (hps : psOf s.sw = 0x0#4)
    (h : load (daLong rx addr s) s = .error o) :
    exec (.lst rx addr) s = o ∧ exec (.lsti rx addr) s = o ∧ exec (.vio ra rx addr) s = o := by
  rw [exec_lst_of_privileged rx addr hps, exec_lsti_of_privileged rx addr hps]
  exact ⟨withWord_of_error h, withPointer_of_error h, exec_vio_of_error ra rx addr hps h⟩

end

/-! ## The operand behind a pointer -/

section
variable {s u : State} {o : Out} {rx : Reg} {addr a : Word} (hp : daIndirect rx addr s = .ok (a, u))
include hp

theorem indirect_abandoned (h : load a u = .error o) (ra : Reg) :
    ∀ i ∈ [Instr.li ra rx addr, .dli ra rx addr, .lubi ra rx addr, .llbi ra rx addr, .sbi ra rx addr, .rbi ra rx addr,
        .tbi ra rx addr, .subi ra rx addr, .slbi ra rx addr], exec i s = o := by
  have pointer : ∀ {k : Word → State → Out}, k a u = o → withPointer rx addr s k = o := fun hk =>
    (withPointer_of_load _ hp).trans hk
  simp only [List.forall_mem_cons]
  delta exec
  dsimp only
  exact ⟨pointer (loadWordTo_of_error h), pointer (loadPairTo_of_error (load2_of_error h)),
    pointer (loadUpperTo_of_error h), pointer (loadLowerTo_of_error h), pointer (updateWord_of_error h),
    pointer (updateWord_of_error h), pointer (testWord_of_error h), pointer (storeUpperFrom_of_error h),
    pointer (storeLowerFrom_of_error h), List.forall_mem_nil _⟩

theorem dli_abandoned (h : load2 a u = .error o) (ra : Reg) : exec (.dli ra rx addr) s = o := by
  change withPointer rx addr s (loadPairTo ra) = o
  rw [withPointer_of_load _ hp, loadPairTo_of_error h]

theorem exec_lsti_of_load (hps : psOf s.sw = 0x0#4) : exec (.lsti rx addr) s = returnFrom a u := by
  rw [exec_lsti_of_privileged rx addr hps, withPointer_of_load _ hp]

end

/-! ## The later words of the operand -/

section
variable {s u : State} {o : Out} {d : Word}

theorem long_second_abandoned {rx : Reg} {addr : Word} (h : load (daLong rx addr s) s = .ok (d, u))
    (h' : load (daLong rx addr s + 1) u = .error o) (ra : Reg) :
    ∀ i ∈ [Instr.dl ra rx addr, .efl ra rx addr, .da ra rx addr, .ds ra rx addr, .dm ra rx addr, .dd ra rx addr,
        .fa ra rx addr, .fs ra rx addr, .fm ra rx addr, .fd ra rx addr, .efa ra rx addr, .efs ra rx addr, .efm ra rx addr,
        .efd ra rx addr, .fc ra rx addr, .efc ra rx addr, .dc ra rx addr, .cbl ra rx addr], exec i s = o := by
  have h2 := load2_of_second_error h h'
  have double : ∀ {k}, withDouble (daLong rx addr s) s k = o := withDouble_of_error h2
  have triple : ∀ {k}, withTriple (daLong rx addr s) s k = o := withTriple_of_error (load3_of_load2_error h2)
  have limits := exec_cbl_of_second_error ra rx addr h h'
  simp only [List.forall_mem_cons]
  delta exec
  dsimp only
  exact ⟨loadPairTo_of_error h2, triple, double, double, double, double, double, double, double, double, triple, triple,
    triple, triple, double, triple, double, limits, List.forall_mem_nil _⟩

theorem base_second_abandoned {br : Reg} {x : Byte} (h2 : load2 (daBase br x s) s = .error o) :
    ∀ i ∈ [Instr.dlb br x, .fab br x, .fsb br x, .fmb br x, .fdb br x, .fcb br x], exec i s = o := by
  have double : ∀ {k}, withDouble (daBase br x s) s k = o := withDouble_of_error h2
  simp only [List.forall_mem_cons]
  delta exec
  dsimp only
  exact ⟨loadPairTo_of_error h2, double, double, double, double, double, List.forall_mem_nil _⟩

theorem baseIndexed_second_abandoned {br rx : Reg} (h2 : load2 (daBaseIndexed br rx s) s = .error o) :
    ∀ i ∈ [Instr.dlbx br rx, .fabx br rx, .fsbx br rx, .fmbx br rx, .fdbx br rx, .fcbx br rx], exec i s = o := by
  have double : ∀ {k}, withDouble (daBaseIndexed br rx s) s k = o := withDouble_of_error h2
  simp only [List.forall_mem_cons]
  delta exec
  dsimp only
  exact ⟨loadPairTo_of_error h2, double, double, double, double, double, List.forall_mem_nil _⟩

theorem long_third_abandoned {rx : Reg} {addr : Word} (h3 : load3 (daLong rx addr s) s = .error o) (ra : Reg) :
    ∀ i ∈ [Instr.efl ra rx addr, .efa ra rx addr, .efs ra rx addr, .efm ra rx addr, .efd ra rx addr, .efc ra rx addr],
      exec i s = o := by
  have triple : ∀ {k}, withTriple (daLong rx addr s) s k = o := withTriple_of_error h3
  simp only [List.forall_mem_cons]
  delta exec
  dsimp only
  exact ⟨triple, triple, triple, triple, triple, triple, List.forall_mem_nil _⟩

end

/-! ## A slot of a range that cannot be read (44_load R494, R500) -/

section
variable {v : Reg → Word} {f : RefFault}

theorem load_of_quiet_fault {n : Nat} {a : Word} {s : State} (hq : QuietFor (n + 1) s)
    (hf : refFault s .cpu (operAccess s) false a = some f) :
    load a s = .error (.next (memFault .cpu (operAccess s) a f (afterTurns 1 s))) :=
  load_of_fault (takeTurn_of_quiet hq)
    ((refFault_congr (s := s) (t := afterTurns 1 s) rfl rfl rfl rfl rfl _ _ _ _).trans hf)

/-- A reference does not depend on general registers or on the schedule. -/
theorem refFault_with_regs_env {s t : State} (ht : t = { s with regs := t.regs, env := t.env }) (a : Word) :
    refFault t .cpu (operAccess t) false a = refFault s .cpu (operAccess s) false a := by
  rw [ht]
  exact refFault_congr (s := s) (t := { s with regs := t.regs, env := t.env }) rfl rfl rfl rfl rfl _ _ _ _

/-- LM fills the slots that can be read and ends at the first that cannot. -/
theorem loadRegs_of_fault : ∀ {k n : Nat} {r : Reg} {a : Word} {s : State}, k < n → k ≤ 15 → QuietFor (k + 1) s →
    SlotsRead (fun _ => False) v k r a s →
    refFault s .cpu (operAccess s) false (a + BitVec.ofNat 16 k) = some f →
    ∃ t, loadRegs n r a s = .error (.next t) ∧ RefFaulted (f.ftBit .cpu) (operAccess s) (a + BitVec.ofNat 16 k)
      { s with regs := t.regs, env := s.env.drop (k + 1) } t ∧ SlotsFilled (fun _ => False) v k r s t
  | _, 0, _, _, _, hn, _, _, _, _ => absurd hn (Nat.not_lt_zero _)
  | 0, n + 1, r, a, s, _, _, hq, _, hf => by
    have ha : a + BitVec.ofNat 16 0 = a := BitVec.add_zero a
    rw [ha] at hf ⊢
    have hframe := memFault_frame .cpu (operAccess s) a f (afterTurns 1 s)
    refine ⟨_, loadRegs_of_error n r (load_of_quiet_fault hq hf), ?_, fun q _ => ?_⟩
    · have hfaulted := memFault_refFaulted .cpu (operAccess s) a f (afterTurns 1 s)
      have hregs : (memFault .cpu (operAccess s) a f (afterTurns 1 s)).regs = s.regs := by rw [hframe]; rfl
      rw [hregs]
      exact hfaulted
    · rw [hframe, if_neg (Nat.not_lt_zero _)]
      rfl
  | k + 1, n + 1, r, a, s, hn, hk, hq, hr, hf => by
    have hload : load a s = .ok (v r, afterTurns 1 s) := load_of_quiet hq (hr.first not_false)
    have hlater : SlotsRead (fun _ => False) v k (r + 1) (a + 1) ((afterTurns 1 s).setReg r (v r)) :=
      hr.later (by omega) rfl
    have hf' : refFault ((afterTurns 1 s).setReg r (v r)) .cpu (operAccess s) false (a + 1 + BitVec.ofNat 16 k) =
        some f := by
      rw [slot_address_succ]
      exact (refFault_with_regs_env (t := (afterTurns 1 s).setReg r (v r)) rfl _).trans hf
    obtain ⟨t, hrun, hfaulted, hfill⟩ := loadRegs_of_fault (s := (afterTurns 1 s).setReg r (v r))
      (Nat.lt_of_succ_lt_succ hn) (by omega) hq.tail hlater hf'
    refine ⟨t, by rw [loadRegs, hload]; exact hrun, ?_, hfill.cons (by omega) fun q _ => State.reg_setReg _ r q (v r)⟩
    rw [slot_address_succ] at hfaulted
    have henv : (s.env.drop 1).drop (k + 1) = s.env.drop (k + 1 + 1) := by rw [List.drop_drop, Nat.add_comm]
    rw [← henv]
    exact hfaulted

/-- One slot of POPM, however many follow it. -/
theorem popRegs_slot {m : Nat} {r : Reg} {s : State} (hq : QuietFor (m + 1) s) (hr : r ≠ 15 → Reads s (s.reg 15) (v r)) :
    ∃ u, (∀ n, popRegs (n + 1) r s = popRegs n (r + 1) u) ∧ u = { s with regs := u.regs, env := u.env } ∧
      QuietFor m u ∧ u.reg 15 = s.reg 15 + 1 ∧ ∀ q, q ≠ 15 → u.reg q = if q = r then v r else s.reg q := by
  by_cases h15 : r = 15
  · refine ⟨s.setReg 15 (s.reg 15 + 1), fun n => by rw [popRegs, if_pos h15], rfl, hq.mono (Nat.le_succ m),
      State.reg_setReg_same s 15 _, fun q hne => ?_⟩
    rw [State.reg_setReg_other s _ hne, if_neg (h15 ▸ hne)]
  · have hload : load (s.reg 15) s = .ok (v r, afterTurns 1 s) := load_of_quiet hq (hr h15)
    refine ⟨((afterTurns 1 s).setReg r (v r)).setReg 15 (s.reg 15 + 1), fun n => ?_, rfl, hq.tail,
      State.reg_setReg_same _ 15 _, fun q hne => ?_⟩
    · simp only [popRegs, if_neg h15, hload]
      rfl
    · rw [State.reg_setReg_other _ _ hne]
      exact State.reg_setReg _ r q (v r)

theorem popRegs_of_error {n : Nat} {r : Reg} {s : State} {o : Out} (hr : r ≠ 15) (h : load (s.reg 15) s = .error o) :
    popRegs (n + 1) r s = .error o := by
  simp only [popRegs, if_neg hr, h]

/-- POPM fills the slots that can be read and ends at the first that cannot, with R15 at its address. -/
theorem popRegs_of_fault : ∀ {k n : Nat} {r : Reg} {s : State}, k < n → k ≤ 15 → r + Fin.ofNat 16 k ≠ 15 →
    QuietFor (k + 1) s → SlotsRead (· = 15) v k r (s.reg 15) s →
    refFault s .cpu (operAccess s) false (s.reg 15 + BitVec.ofNat 16 k) = some f →
    ∃ t, popRegs n r s = .error (.next t) ∧ RefFaulted (f.ftBit .cpu) (operAccess s) (s.reg 15 + BitVec.ofNat 16 k)
      { s with regs := t.regs, env := t.env } t ∧ t.reg 15 = s.reg 15 + BitVec.ofNat 16 k ∧
      SlotsFilled (· = 15) v k r s t
  | _, 0, _, _, hn, _, _, _, _, _ => absurd hn (Nat.not_lt_zero _)
  | 0, n + 1, r, s, _, _, hne, hq, _, hf => by
    have hr : r ≠ 15 := by simpa using hne
    have ha : s.reg 15 + BitVec.ofNat 16 0 = s.reg 15 := BitVec.add_zero _
    rw [ha] at hf ⊢
    have hframe := memFault_frame .cpu (operAccess s) (s.reg 15) f (afterTurns 1 s)
    have hregs : (memFault .cpu (operAccess s) (s.reg 15) f (afterTurns 1 s)).regs = s.regs := by rw [hframe]; rfl
    have henv : (memFault .cpu (operAccess s) (s.reg 15) f (afterTurns 1 s)).env = (afterTurns 1 s).env := memFault_env ..
    refine ⟨_, popRegs_of_error hr (load_of_quiet_fault hq hf), ?_, ?_, fun q _ => ?_⟩
    · rw [hregs, henv]
      exact memFault_refFaulted .cpu (operAccess s) (s.reg 15) f (afterTurns 1 s)
    · rw [State.reg, hregs]
      rfl
    · rw [State.reg, hregs, if_neg (Nat.not_lt_zero _)]
      rfl
  | k + 1, n + 1, r, s, hn, hk, hne, hq, hr, hf => by
    obtain ⟨u, hfirst, hu, hqu, hsp, hregs⟩ := popRegs_slot hq hr.first
    have hlater : SlotsRead (· = 15) v k (r + 1) (u.reg 15) u := hsp ▸ hr.later (by omega) hu
    have hne' : r + 1 + Fin.ofNat 16 k ≠ 15 := by
      have hsum : (1 : Reg) + Fin.ofNat 16 k = Fin.ofNat 16 (k + 1) := by
        refine Fin.ext ?_
        change (1 + k % 16) % 16 = (k + 1) % 16
        omega
      rwa [add_assoc, hsum]
    have hf' : refFault u .cpu (operAccess u) false (u.reg 15 + BitVec.ofNat 16 k) = some f := by
      rw [hsp, slot_address_succ, refFault_with_regs_env hu]
      exact hf
    obtain ⟨t, hrun, hfaulted, hspt, hfill⟩ := popRegs_of_fault (Nat.lt_of_succ_lt_succ hn) (by omega) hne' hqu hlater hf'
    refine ⟨t, (hfirst n).trans hrun, ?_, ?_, hfill.cons (by omega) hregs⟩
    · have hacc : operAccess u = operAccess s := by rw [hu]; rfl
      rw [hsp, slot_address_succ, hacc, hu] at hfaulted
      exact hfaulted
    · rw [hspt, hsp, slot_address_succ]

end

/-- Settles O26: every form is an operation over references at its address, and what ends the reference ends it. -/
theorem faultingReadAbandonsInstruction : Obligations.FaultingReadAbandonsInstruction := by
  unfold Obligations.FaultingReadAbandonsInstruction
  refine ⟨fun s o => ⟨fun ra rx addr h => long_abandoned h ra, fun br x h => base_abandoned h,
      fun br rx h => baseIndexed_abandoned h, fun ra => urs_abandoned, fun ra rb => mov_abandoned,
      fun ra rx addr => privileged_abandoned⟩,
    fun s u o ra rx addr a hp => ⟨fun h => ?pointed, fun d v h h' => ?pointedSecond, fun d v h h' hps => ?pointedThird⟩,
    fun s u o a d h h' => ⟨fun ra rx addr ha => ?second, fun br x ha => ?secondB, fun br rx ha => ?secondBX⟩,
    fun s u o ra rx addr d h h' => ⟨?third, fun hps => ?thirdStatus⟩, ?several, ?popped⟩
  case pointed =>
    refine ⟨indirect_abandoned hp h ra, fun hps => ?_⟩
    rw [exec_lsti_of_load hp hps]
    exact withWord_of_error h
  case pointedSecond =>
    refine ⟨dli_abandoned hp (load2_of_second_error h h') ra, fun hps => ?_⟩
    rw [exec_lsti_of_load hp hps]
    exact returnFrom_of_second_error h h'
  case pointedThird =>
    rw [exec_lsti_of_load hp hps]
    exact returnFrom_of_third_error h h'
  case second =>
    subst ha
    refine ⟨long_second_abandoned h h' ra, fun hps => ⟨?_, exec_vio_of_second_error ra rx addr hps h h'⟩⟩
    rw [exec_lst_of_privileged rx addr hps]
    exact returnFrom_of_second_error h h'
  case secondB => exact base_second_abandoned (ha ▸ load2_of_second_error h h')
  case secondBX => exact baseIndexed_second_abandoned (ha ▸ load2_of_second_error h h')
  case third => exact long_third_abandoned (load3_of_third_error h h') ra
  case thirdStatus =>
    rw [exec_lst_of_privileged rx addr hps]
    exact returnFrom_of_third_error h h'
  case several =>
    intro s n rx addr ws k f hk hq hr hf
    have hslots : SlotsRead (fun _ => False) (fun q => ws q.val) k 0 (daLong rx addr s) s := fun q _ hlt => by
      rw [sub_zero] at hlt ⊢
      exact hr q.val hlt
    obtain ⟨t, hrun, hfaulted, hfill⟩ := loadRegs_of_fault (n := n.val + 1) (by omega) (by omega) hq hslots hf
    refine ⟨t, congrArg (fun r => andThen r .next) hrun, ftBit_cpu f ▸ hfaulted, fun r => ?_⟩
    simpa using hfill r not_false
  case popped =>
    intro s ra rb ws r f hr15 hle hq hr hf
    have hslots : SlotsRead (· = 15) (fun q => ws (q - ra).val) (r - ra).val ra (s.reg 15) s := hr
    have hslot : ra + Fin.ofNat 16 (r - ra).val ≠ 15 := by
      rw [Fin.ofNat_val_eq_self, add_sub_cancel]
      exact hr15
    obtain ⟨t, hrun, hfaulted, hsp, hfill⟩ := popRegs_of_fault (n := rangeCount ra rb) (Nat.lt_succ_of_le hle) (by omega)
      hslot hq hslots hf
    exact ⟨t, congrArg (fun r => andThen r .next) hrun, ftBit_cpu f ▸ hfaulted, hsp, hfill⟩

end Sys2Proof.Machine

/-! # Stores that do not pass (20_memory R213, R216, R219, R222, R231)

A store meets a turn that ends the step, passes, is suppressed, or ends the instruction; then the stores of every
instruction word by word, and the read-modify-writes whose store is suppressed. -/

namespace Sys2Proof.Machine

/-! ## Why a write is refused -/

section
variable {s : State} {g : Agent} {a : Access} {wr : Bool} {l : Word} {f : RefFault}

theorem refFault_none_iff : refFault s g a wr l = none ↔
    pageFault s a wr l = none ∧ physFault s g wr (translate s a l) = none := by
  unfold refFault
  cases pageFault s a wr l <;> simp

/-- Only a read shows a parity error. -/
theorem physFault_write_ne_parity (p : PAddr) : physFault s g true p ≠ some .parity := by
  unfold physFault
  split
  · nofun
  · split
    · nofun
    · simp

theorem pageFault_ne_parity : pageFault s a wr l ≠ some .parity := by
  cases hx : s.cfg.expanded with
  | none =>
    rw [pageFault_of_unexpanded hx]
    nofun
  | some x =>
    rw [pageFault_of_expanded hx]
    split
    · nofun
    · split
      · nofun
      · split <;> nofun

theorem refFault_write_ne_parity : refFault s g a true l ≠ some .parity := by
  cases hp : pageFault s a true l with
  | none =>
    rw [refFault_of_page_ok hp]
    exact physFault_write_ne_parity _
  | some f =>
    rw [refFault_of_pageFault hp, ← hp]
    exact pageFault_ne_parity

/-- The FT bit of a refused write. -/
theorem ftBit_of_write (h : refFault s .cpu a true l = some f) :
    f.ftBit .cpu = if f = .illegalAddress then 8 else 0 := by
  have hne : f ≠ .parity := fun hf => refFault_write_ne_parity (hf ▸ h)
  rw [ftBit_cpu, if_neg hne]

/-- Where an operand page may be read, a write can only meet its protection. -/
theorem pageFault_write_of_read (hk : a.kind = .oper) (hr : pageFault s a false l = none) :
    pageFault s a true l = none ∨ pageFault s a true l = some .writeProtect := by
  cases hx : s.cfg.expanded with
  | none => exact .inl (pageFault_of_unexpanded hx a true l)
  | some x =>
    rw [pageFault_of_expanded hx] at hr ⊢
    split at hr
    · cases hr
    · next hkey =>
      rw [if_neg hkey, if_neg (by rw [hk]; exact fun h => nomatch h.1)]
      split
      · exact .inr rfl
      · exact .inl rfl

/-- A word that can be read stands on a page that may be read, and is present. -/
theorem readable_parts (hr : refFault s g a false l = none) :
    pageFault s a false l = none ∧ physPresent s.cfg (translate s a l) = true := by
  obtain ⟨hpage, hphys⟩ := refFault_none_iff.1 hr
  refine ⟨hpage, ?_⟩
  cases hp : physPresent s.cfg (translate s a l) with
  | true => rfl
  | false => simp [physFault, hp] at hphys

/-- A present operand word of a page that may be read is written or write protected. -/
theorem refFault_write_of_readable (hk : a.kind = .oper) (hpage : pageFault s a false l = none)
    (hpresent : physPresent s.cfg (translate s a l) = true) (h : refFault s g a true l = some f) : f = .writeProtect := by
  rcases pageFault_write_of_read hk hpage with hp | hp
  · rw [refFault_of_page_ok hp, physFault, hpresent] at h
    simp only [Bool.not_true, Bool.false_and, Bool.false_eq_true, if_false] at h
    split at h <;> cases h
    rfl
  · rw [refFault_of_pageFault hp] at h
    cases h
    rfl

theorem pageFault_congr {t : State} (hcfg : t.cfg = s.cfg) (hpages : t.pages = s.pages) :
    pageFault t a wr l = pageFault s a wr l := by
  rw [pageFault, pageFault, hcfg, selectedPage_congr hcfg hpages]

end

/-! ## One store after its turn -/

section
variable {s u : State} {a v : Word} {f : RefFault}

theorem store_of_turn_error {o : Out} (ht : takeTurn s = .error o) : store a v s = .error o := by
  rw [store, writeRef, ht]

theorem store_of_writeProtect (ht : takeTurn s = .ok u) (hf : refFault u .cpu (operAccess u) true a = some .writeProtect) :
    store a v s = .ok (memFault .cpu (operAccess u) a .writeProtect u) := by
  simp only [store, writeRef, ht, writeNow, operAccess_of_turn ht, hf, orAbandon_ok]

theorem writeNow_of_fault {b : Access} (hne : f ≠ .writeProtect) (hf : refFault u .cpu b true a = some f) :
    writeNow b a v u = .error (memFault .cpu b a f u) := by
  rcases writeNow_cases b a v u with ⟨h, _⟩ | ⟨h, _⟩ | ⟨e, _, h, hw⟩ <;> rw [h] at hf <;> cases hf
  · exact absurd rfl hne
  · exact hw

theorem storeNow_of_writeProtect (hf : refFault u .cpu (operAccess u) true a = some .writeProtect) :
    storeNow a v u = .ok (memFault .cpu (operAccess u) a .writeProtect u) := by
  simp only [storeNow, writeNow, hf, orAbandon_ok]

theorem storeNow_of_fault (hne : f ≠ .writeProtect) (hf : refFault u .cpu (operAccess u) true a = some f) :
    storeNow a v u = .error (.next (memFault .cpu (operAccess u) a f u)) := by
  rw [storeNow, writeNow_of_fault hne hf, orAbandon_error]

end

/-! ## Stores word by word -/

theorem storeAll_cons (a v : Word) (ws : List Word) (s : State) :
    storeAll a (v :: ws) s = andThen (store a v s) (storeAll (a + 1) ws) := by
  rw [storeAll, storeWords]
  cases store a v s <;> rfl

theorem storeAll_storesOneByOne : ∀ (ws : List Word) (a : Word) {s : State}, Memory.wf s.mem = true →
    StoresOneByOne a ws s (storeAll a ws s)
  | [], _, _, _ => rfl
  | v :: ws, a, s, hw => by
    rw [storeAll_cons]
    refine ⟨fun e ht => ?_, fun u ht => ⟨fun ha => ?_, fun hf => ?_, fun f hne hf => ?_⟩⟩
    · rw [store_of_turn_error ht, andThen_error]
    · obtain ⟨t, hstore, hres, hwt⟩ := store_storeResult v hw ht ha
      rw [hstore, andThen_ok]
      exact ⟨t, hres, storeAll_storesOneByOne ws (a + 1) hwt⟩
    · rw [store_of_writeProtect ht hf, andThen_ok]
      refine ⟨_, memFault_refFaulted .cpu (operAccess u) a .writeProtect u, storeAll_storesOneByOne ws (a + 1) ?_⟩
      rw [memFault_mem]
      exact takeTurn_wf ht hw
    · rw [store_of_fault v ht hf hne, andThen_error, ← ftBit_of_write hf]
      exact ⟨_, memFault_refFaulted .cpu (operAccess u) a f u, rfl⟩

/-! ## A word read and not written back (20_memory R213, R219) -/

section
variable {s u v : State} {a d : Word}

/-- A word that was read, and whose write is refused now or after a further turn, is write protected. -/
theorem writeProtect_of_load {f : RefFault} (hl : load a s = .ok (d, u)) (hv : EventKeeps u v)
    (hf : refFault v .cpu (operAccess v) true a = some f) : f = .writeProtect := by
  obtain ⟨ht, hread⟩ := load_ok hl
  have hacc : operAccess v = operAccess s := by
    rw [operAccess_of_turn ht, hv]
    rfl
  have hcfg : v.cfg = u.cfg := by rw [hv]
  have hpages : v.pages = u.pages := by rw [hv]
  obtain ⟨hpage, hpresent⟩ := readable_parts (readNow_ok hread).1
  rw [hacc] at hf
  refine refFault_write_of_readable rfl ((pageFault_congr hcfg hpages).trans hpage) ?_ hf
  rw [hcfg, translate_congr hcfg hpages]
  exact hpresent

theorem updateWord_suppressed (f : Word → Word) (hl : load a s = .ok (d, u)) (ht : takeTurn u = .ok v)
    (hf : refFault v .cpu (operAccess v) true a = some .writeProtect) :
    Completes (updateWord a f s) (RefFaulted 0 (operAccess v) a v) := by
  rw [updateWord, withWord_of_load _ hl, storeAll_cons, store_of_writeProtect ht hf, andThen_ok]
  exact ⟨_, rfl, memFault_refFaulted .cpu (operAccess v) a .writeProtect v⟩

theorem storeUpperFrom_suppressed (ra : Reg) (hl : load a s = .ok (d, u)) (ht : takeTurn u = .ok v)
    (hf : refFault v .cpu (operAccess v) true a = some .writeProtect) :
    Completes (storeUpperFrom ra a s) (RefFaulted 0 (operAccess v) a v) := updateWord_suppressed _ hl ht hf

theorem storeLowerFrom_suppressed (ra : Reg) (hl : load a s = .ok (d, u)) (ht : takeTurn u = .ok v)
    (hf : refFault v .cpu (operAccess v) true a = some .writeProtect) :
    Completes (storeLowerFrom ra a s) (RefFaulted 0 (operAccess v) a v) := updateWord_suppressed _ hl ht hf

theorem long_updates_suppressed {rx : Reg} {addr : Word} (hl : load (daLong rx addr s) s = .ok (d, u))
    (ht : takeTurn u = .ok v) (hf : refFault v .cpu (operAccess v) true (daLong rx addr s) = some .writeProtect) (ra : Reg) :
    ∀ i ∈ [Instr.sb ra rx addr, .rb ra rx addr, .srm ra rx addr, .stub ra rx addr, .stlb ra rx addr],
      Completes (exec i s) (RefFaulted 0 (operAccess v) (daLong rx addr s) v) := by
  simp only [List.forall_mem_cons]
  delta exec
  dsimp only
  exact ⟨updateWord_suppressed _ hl ht hf, updateWord_suppressed _ hl ht hf, updateWord_suppressed _ hl ht hf,
    storeUpperFrom_suppressed ra hl ht hf, storeLowerFrom_suppressed ra hl ht hf, List.forall_mem_nil _⟩

theorem indirect_updates_suppressed {s0 : State} {rx : Reg} {addr : Word} (hp : daIndirect rx addr s = .ok (a, s0))
    (hl : load a s0 = .ok (d, u)) (ht : takeTurn u = .ok v)
    (hf : refFault v .cpu (operAccess v) true a = some .writeProtect) (ra : Reg) :
    ∀ i ∈ [Instr.sbi ra rx addr, .rbi ra rx addr, .subi ra rx addr, .slbi ra rx addr],
      Completes (exec i s) (RefFaulted 0 (operAccess v) a v) := by
  simp only [List.forall_mem_cons]
  rw [exec_sbi_of_pointer hp, exec_rbi_of_pointer hp, exec_subi_of_pointer hp, exec_slbi_of_pointer hp]
  exact ⟨updateWord_suppressed _ hl ht hf, updateWord_suppressed _ hl ht hf, storeUpperFrom_suppressed ra hl ht hf,
    storeLowerFrom_suppressed ra hl ht hf, List.forall_mem_nil _⟩

/-- The result in memory is lost, CS and the request are not. -/
theorem storeSum_suppressed (r : Word) (carry : Bool) {ovf : Bool} {p : Prop} (hp : ovf = true ↔ p)
    (ht : takeTurn u = .ok v) (hf : refFault v .cpu (operAccess v) true a = some .writeProtect) :
    Completes (storeSum a r carry ovf u) fun t => ∃ w, RefFaulted 0 (operAccess v) a v w ∧
      StatusResult (csArith carry r) { w with pi := t.pi } t ∧ Pends 4 p w t := by
  rw [storeSum, store_of_writeProtect ht hf, andThen_ok]
  refine ⟨_, rfl, _, memFault_refFaulted .cpu (operAccess v) a .writeProtect v, ?_, pends_raiseIf hp fixedOverflow rfl⟩
  rw [raiseIf_eq]
  rfl

theorem incm_decm_suppressed {rx : Reg} {addr : Word} {n : Nat} (hn : n ≤ 16) (hl : load (daLong rx addr s) s = .ok (d, u))
    (ht : takeTurn u = .ok v) (hf : refFault v .cpu (operAccess v) true (daLong rx addr s) = some .writeProtect) :
    Completes (exec (.incm n rx addr) s) (fun t => ∃ w, RefFaulted 0 (operAccess v) (daLong rx addr s) v w ∧
      StatusResult (signCS (d + BitVec.ofNat 16 n).toInt ||| carryCS (2 ^ 16 ≤ d.toNat + n)) { w with pi := t.pi } t ∧
      Pends 4 (Unrepresentable 16 (d.toInt + n)) w t) ∧
    Completes (exec (.decm n rx addr) s) (fun t => ∃ w, RefFaulted 0 (operAccess v) (daLong rx addr s) v w ∧
      StatusResult (signCS (d - BitVec.ofNat 16 n).toInt ||| carryCS (n ≤ d.toNat)) { w with pi := t.pi } t ∧
      Pends 4 (Unrepresentable 16 (d.toInt - n)) w t) := by
  have hnat : (shortPositive n).toNat = n := shortPositive_toNat hn
  have hint : (shortPositive n).toInt = n := shortPositive_toInt hn
  have hofNat : BitVec.ofNat 16 n = shortPositive n := rfl
  rw [exec_incm_of_load n hl, exec_decm_of_load n hl, hofNat, ← hint]
  generalize shortPositive n = k at hnat hint ⊢
  subst hnat
  rw [← csArith_eq, ← csArith_eq]
  exact ⟨storeSum_suppressed _ _ (addOverflow_iff _ _) ht hf, storeSum_suppressed _ _ (subOverflow_iff _ _) ht hf⟩

/-- TSB has set CS before its store is suppressed. -/
theorem tsb_suppressed {n : BitNo} {rx : Reg} {addr : Word} (hl : load (daLong rx addr s) s = .ok (d, u))
    (hzero : bitAt d n = false) (hf : refFault u .cpu (operAccess u) true (daLong rx addr s) = some .writeProtect) :
    Completes (exec (.tsb n rx addr) s) fun t => ∃ w, StatusResult 0b0010#4 u w ∧
      RefFaulted 0 (operAccess u) (daLong rx addr s) w t := by
  have hf' : refFault (setCS (csBit d n) u) .cpu (operAccess (setCS (csBit d n) u)) true (daLong rx addr s) =
      some .writeProtect := by
    rw [operAccess_setCS]
    exact (refFault_congr (s := u) rfl rfl rfl rfl rfl _ _ _ _).trans hf
  rw [exec_tsb_of_load hl, if_neg (Bool.eq_false_iff.1 hzero), storeNow_of_writeProtect hf', andThen_ok, operAccess_setCS,
    csBit_of_zero hzero]
  exact ⟨_, rfl, setCS 0b0010#4 u, rfl, memFault_refFaulted .cpu (operAccess u) _ .writeProtect _⟩

end

/-! ## SJS and MOV (43_jump_branch R466, 45_store R527) -/

/-- A fault of a reference leaves the general registers. -/
theorem memFault_setReg (g : Agent) (a : Access) (l : Word) (f : RefFault) (r : Reg) (v : Word) (s : State) :
    memFault g a l f (s.setReg r v) = (memFault g a l f s).setReg r v := by
  unfold memFault captureMfsr State.setReg raiseFault mfsrGroup
  cases bitAt s.cfg.ftImplemented (f.ftBit g) <;> cases hm : s.cfg.mfsr <;> simp [raiseInterrupt, hm]

theorem memFault_reg (g : Agent) (a : Access) (l : Word) (f : RefFault) (r : Reg) (s : State) :
    (memFault g a l f s).reg r = s.reg r := by
  rw [memFault_frame]
  rfl

section
variable {s u v : State} {ra rb : Reg} {f : RefFault}

/-- SJS whose store does not pass: the stack pointer is decremented; the jump follows when the store is suppressed. -/
theorem exec_sjs_of_fault (rx : Reg) (addr : Word) (ht : takeTurn s = .ok u)
    (hf : refFault u .cpu (operAccess u) true (s.reg ra - 1) = some f) : exec (.sjs ra rx addr) s =
    .next { (memFault .cpu (operAccess u) (s.reg ra - 1) f u).setReg ra (s.reg ra - 1) with
      ic := if f = .writeProtect then daLong rx addr s else u.ic } := by
  have hu := takeTurn_keeps ht
  have hregs : u.regs = s.regs := by rw [hu]
  have hra : u.reg ra = s.reg ra := congrArg (fun rs => rs.get ra) hregs
  have hf' : refFault (u.setReg ra (s.reg ra - 1)) .cpu (operAccess (u.setReg ra (s.reg ra - 1))) true (s.reg ra - 1) =
      some f := (refFault_congr (s := u) rfl rfl rfl rfl rfl _ _ _ _).trans hf
  change execSjs ra rx addr s = _
  simp only [execSjs, ht, andThen_ok, hra]
  by_cases hwp : f = .writeProtect
  · subst hwp
    rw [storeNow_of_writeProtect hf', andThen_ok, memFault_setReg, daLong_congr hregs, if_pos rfl]
    rfl
  · have hic : (memFault .cpu (operAccess u) (s.reg ra - 1) f u).ic = u.ic := by rw [memFault_frame]
    rw [storeNow_of_fault hwp hf', andThen_error, memFault_setReg, if_neg hwp, ← hic]
    rfl

theorem sjs_refused (rx : Reg) (addr : Word) (ht : takeTurn s = .ok u)
    (hf : refFault u .cpu (operAccess u) true (s.reg ra - 1) = some f) :
    Completes (exec (.sjs ra rx addr) s) fun t => ∃ w,
      RefFaulted (if f = .illegalAddress then 8 else 0) (operAccess u) (s.reg ra - 1) u w ∧ KeepsRegs [ra] s t ∧
        t.reg ra = s.reg ra - 1 ∧
        t = { w with regs := t.regs, ic := if f = .writeProtect then daLong rx addr s else w.ic } := by
  have hreg : ∀ r, u.reg r = s.reg r := fun r => by
    rw [takeTurn_keeps ht]
    rfl
  have hic : (memFault .cpu (operAccess u) (s.reg ra - 1) f u).ic = u.ic := by rw [memFault_frame]
  rw [← ftBit_of_write hf]
  refine ⟨_, exec_sjs_of_fault rx addr ht hf, _, memFault_refFaulted .cpu (operAccess u) _ f u, fun r hr => ?_,
    State.reg_setReg_same _ ra _, ?_⟩
  · exact (State.reg_setReg_other _ _ (mt List.mem_singleton.2 hr)).trans ((memFault_reg ..).trans (hreg r))
  · rw [hic]
    rfl

/-- MOV whose store does not pass ends there; when the store is suppressed it counts. -/
theorem mov_refused {d : Word} (hn : s.reg (ra + 1) ≠ 0x0000#16) (hl : load (s.reg rb) s = .ok (d, u))
    (ht : takeTurn u = .ok v) (hf : refFault v .cpu (operAccess v) true (s.reg ra) = some f) :
    Completes (exec (.mov ra rb) s) fun t => ∃ w,
      RefFaulted (if f = .illegalAddress then 8 else 0) (operAccess v) (s.reg ra) v w ∧ (f ≠ .writeProtect → t = w) ∧
      (f = .writeProtect → t = { w with regs := t.regs, ic := t.ic } ∧
        (∀ r, t.reg r = s.reg r + (if r = ra then 1 else 0) + (if r = rb then 1 else 0) - if r = ra + 1 then 1 else 0) ∧
        t.ic = if t.reg (ra + 1) = 0x0000#16 then s.ic else s.ic - 1) := by
  have hfaulted := memFault_refFaulted .cpu (operAccess v) (s.reg ra) f v
  rw [← ftBit_of_write hf]
  rw [← load_reg hl ra] at hf ⊢
  by_cases hwp : f = .writeProtect
  · subst hwp
    have hreg : ∀ r, (memFault .cpu (operAccess v) (u.reg ra) .writeProtect v).reg r = s.reg r := fun r => by
      rw [memFault_reg, ← load_reg hl, takeTurn_keeps ht]
      rfl
    have huic : u.ic = s.ic := by rw [takeTurn_keeps (load_ok hl).1]
    have hic : (memFault .cpu (operAccess v) (u.reg ra) .writeProtect v).ic = s.ic := by
      rw [memFault_frame, takeTurn_keeps ht, huic]
    refine ⟨_, exec_mov_of_store hn hl (store_of_writeProtect ht hf),
      memFault .cpu (operAccess v) (u.reg ra) .writeProtect v, load_reg hl ra ▸ hfaulted, fun h => absurd rfl h,
      fun _ => ⟨rfl, fun r => ?_, ?_⟩⟩
    · rw [← hreg]
      exact movRegisters_reg ra rb _ r
    · change movCounter ra (u.ic - 1) (movRegisters ra rb _) = _
      rw [movCounter, huic, show (movRegisters ra rb _).ic = s.ic from hic]
      rfl
  · refine ⟨_, ?_, _, load_reg hl ra ▸ hfaulted, fun _ => rfl, fun h => absurd h hwp⟩
    change execMov ra rb s = _
    rw [execMov, if_neg hn, withWord_of_load _ hl, store_of_fault d ht hf hwp, andThen_error]

end

/-- Settles O27: the stores are `storeAll` of their words; a word read before its write is refused is write protected. -/
theorem faultingStoreStoresNothing : Obligations.FaultingStoreStoresNothing := by
  unfold Obligations.FaultingStoreStoresNothing
  refine ⟨fun s ra rx br addr x n hw => ?stores, fun s s0 u v ra rx addr a d f hl ht hf => ?updates,
    fun s u n rx addr d f hl hzero hf => ?tsb, fun s u ra rx addr f => sjs_refused rx addr,
    fun s u v ra rb d f => mov_refused⟩
  case stores =>
    intro two
    have htwo : ∀ {a t} (r : Reg), Memory.wf t.mem = true →
        StoresOneByOne a [t.reg r, t.reg (r + 1)] t (storeAll a (wordsOf2 (t.pair r)) t) := fun {a t} r hwt => by
      rw [wordsOf2_pair]
      exact storeAll_storesOneByOne _ a hwt
    have hthree : StoresOneByOne (daLong rx addr s) [s.reg ra, s.reg (ra + 1), s.reg (ra + 2)] s
        (storeAll (daLong rx addr s) (wordsOf3 (s.triple ra)) s) := by
      rw [wordsOf3_triple]
      exact storeAll_storesOneByOne _ _ hw
    refine ⟨storeAll_storesOneByOne _ _ hw, storeAll_storesOneByOne _ _ hw, storeAll_storesOneByOne _ _ hw,
      storeAll_storesOneByOne _ _ hw, htwo ra hw, htwo 0 hw, htwo 0 hw, hthree, storeAll_storesOneByOne _ _ hw,
      fun a u hp => ?_⟩
    have hwu : Memory.wf u.mem = true := load_wf hp hw
    have hreg := load_reg hp
    have hsti : exec (.sti ra rx addr) s = storeAll a [u.reg ra] u :=
      withPointer_of_load (fun a t => storeAll a [t.reg ra] t) hp
    have hstci : exec (.stci n rx addr) s = storeAll a [smallConstant n] u :=
      withPointer_of_load (fun a t => storeAll a [smallConstant n] t) hp
    have hdsti : exec (.dsti ra rx addr) s = storeAll a (wordsOf2 (u.pair ra)) u :=
      withPointer_of_load (fun a t => storeAll a (wordsOf2 (t.pair ra)) t) hp
    simp only [two]
    rw [hsti, hstci, hdsti, ← hreg ra, ← hreg (ra + 1)]
    exact ⟨storeAll_storesOneByOne _ _ hwu, storeAll_storesOneByOne _ _ hwu, htwo ra hwu⟩
  case updates =>
    obtain rfl := writeProtect_of_load hl (takeTurn_keeps ht) hf
    refine ⟨rfl, fun hs ha => ?_, fun hp => ?_⟩
    · subst hs ha
      exact ⟨long_updates_suppressed hl ht hf ra, fun n _ hn => incm_decm_suppressed hn hl ht hf⟩
    · exact indirect_updates_suppressed hp hl ht hf ra
  case tsb =>
    obtain rfl := writeProtect_of_load hl (.refl u) hf
    exact tsb_suppressed hl hzero hf

end Sys2Proof.Machine
